-- ==== Sys2Proof/Word.lean ====
section
/-! DEFINITION. The word types of the block's boundary and the plainest arithmetic on them. -/

namespace Sys2Proof

/-- A timebase tick count, in ticks of 250 ps (R251). -/
abbrev Tick := BitVec 64

/-- A register word as it travels on the register port (R13). -/
abbrev Word := BitVec 64

end Sys2Proof
end

