-- ==== Sys2Proof/Syntax.lean ====
section
/-!
DEFINITION. The commands of the block: one constructor of `Instr` per row of spec/opcode_table.json,
with the operands a sender gives. Facts that only the outside world decides (what a fetch returned,
whether a voltage settled, what a margin monitor read) are operands.
-/

namespace Sys2Proof

/-- Who makes a register access, and through which bank: `page = none` is the global window with the
bank of the requester's world, `page = some s` the configuration page of native slice `s` (R446). -/
structure RegOp where
  world : Bool
  pid   : BitVec 20
  tag   : BitVec 8
  page  : Option (BitVec 12)
  deriving DecidableEq, Repr

/-- A raw request on the register port (R13). -/
structure RawReq where
  world : Bool
  pid   : BitVec 20
  tag   : BitVec 8
  addr  : BitVec 20
  size  : BitVec 2
  strb  : BitVec 8
  data  : BitVec 64
  deriving DecidableEq, Repr

/-- The data of a configuration commit: the high half alone, or all 64 bits (R156). -/
inductive CfgData where
  | hi   (v : BitVec 32)
  | full (v : BitVec 64)
  deriving DecidableEq, Repr

/-- Which part of a 64-bit register an access addresses (R17). -/
inductive Part where
  | full
  | lo
  | hi
  deriving DecidableEq, Repr

/-- A request on a doorbell port (R13, R121). `emapErr`: the express map bits read for it carry an
uncorrectable error (R133). -/
structure DbReq where
  port    : BitVec 2
  tag     : BitVec 8
  world   : Bool
  pid     : BitVec 20
  addr    : BitVec 24
  size    : BitVec 2
  strb    : BitVec 8
  data    : BitVec 64
  emapErr : Bool
  deriving DecidableEq, Repr

/-- The outcome of the lockstep compare of one Weir pass (R197 to R199). -/
inductive Compare where
  | equal
  | replayEqual
  | replayFails
  deriving DecidableEq, Repr

/-- What one array access or scrub read finds in a word (R163, R164). -/
inductive WordState where
  | clean
  | correctable
  | uncorrectable
  | rowLost (words : BitVec 6)
  | rowAddr
  deriving DecidableEq, Repr

/-- What the scrub finds in one array's row: banks whose word is not clean, and whether the row's
words exclusive-or to zero (R169). -/
structure RowRead where
  words    : List (BitVec 6 × WordState)
  parityOk : Bool
  deriving DecidableEq, Repr

/-- What the words of the Queue Head Table that a change uses are found to be (R176): clean in both copies and equal, to
be supplied by one copy, clean in both copies of which one names another head and tail, or clean in neither. -/
inductive HeadWord where
  | clean
  | otherCopy
  | disagree (head tail : BitVec 21)
  | lost
  deriving DecidableEq, Repr

/-- What the accesses of one resolution find: in the two arrays (R163, R164), in the Queue Head Table (R176),
and whether a link store word is clean in neither copy (R179). -/
structure Access where
  ssa      : WordState
  pla      : WordState
  head     : HeadWord
  linkLost : Bool
  deriving DecidableEq, Repr

/-- An error that has come into a stored word and stands there until an access finds it: in the SSA or PLA word of a source
(R163), in the Queue Head Table word of an owner and priority (R176), in both copies of the link store word of a source
(R179), or in the express map bit of a source (R133). -/
inductive Upset where
  | word (pla : Bool) (src : BitVec 21) (w : WordState)
  | head (owner : BitVec 11) (prio : BitVec 8) (w : HeadWord)
  | link (src : BitVec 21)
  | map (src : BitVec 21)
  deriving DecidableEq, Repr

/-- What one firing resolution finds: its accesses, and the compare of the sovereign resolver's copies (R463). -/
structure Resolution where
  acc : Access
  cmp : Compare
  deriving DecidableEq, Repr

/-- A Weir pass: its lockstep compare (R197), its queue owner (R182), the owner's head word (R176), and the errors that have
come into the arrays since the pass before it. -/
structure PassOp where
  cmp    : Compare
  owner  : BitVec 11
  head   : HeadWord
  upsets : List Upset
  deriving DecidableEq, Repr

/-- A visit of a wheel slot (R188): what its accesses and its compare find (R163, R197). -/
structure SlotVisit where
  slot : BitVec 14
  acc  : Access
  cmp  : Compare
  deriving DecidableEq, Repr

/-- An upstream message on a delivery port (R30). `badOp`: DLVn_U_OP was the reserved 0b00. `busy`: the sluice has
accepted a message in this SCLK cycle already, so that this one waits in the port's upstream queue (R228). `acc` and
`cmp`: what its accesses and the compare of its pass find (R163, R176, R197). -/
structure UpMsg where
  port  : BitVec 4
  ctx   : BitVec 6
  tag   : BitVec 12
  parOk : Bool
  badOp : Bool
  busy  : Bool
  acc   : Access
  cmp   : Compare
  deriving DecidableEq, Repr

/-- The header of an image (R80). -/
structure ImageHdr where
  magic   : BitVec 32
  format  : BitVec 16
  kind    : BitVec 8
  length  : BitVec 32
  nsect   : BitVec 16
  version : BitVec 32
  gen     : BitVec 32
  keyslot : BitVec 8
  buildId : BitVec 384
  deriving DecidableEq, Repr

/-- A section descriptor (R82). -/
structure SecDesc where
  type   : BitVec 8
  sver   : BitVec 8
  count  : BitVec 16
  offset : BitVec 32
  slen   : BitVec 32
  crc    : BitVec 32
  deriving DecidableEq, Repr

/-- The records of a structure image (R83), each record its bytes read as one little-endian number.
A list shorter than its section's COUNT stands for records of zero beyond its end. -/
structure ImageBody where
  boot      : BitVec 512
  pools     : List (BitVec 64)
  presets   : List (BitVec 128)
  wired     : List (BitVec 32)
  locked    : List (BitVec 64)
  contexts  : List (BitVec 32)
  slices    : List (BitVec 256)
  smap      : List (BitVec 64)
  groups    : List (BitVec 1088)
  cascade   : BitVec 768
  lanes     : List (BitVec 64)
  profiles  : List (BitVec 64)
  reactions : List (BitVec 16)
  domains   : List (BitVec 32)
  fallback  : List (BitVec 64)
  deriving DecidableEq, Repr

/-- The body of an image without a record. -/
def ImageBody.empty : ImageBody :=
  { boot := 0, pools := [], presets := [], wired := [], locked := [], contexts := [], slices := [],
    smap := [], groups := [], cascade := 0, lanes := [], profiles := [], reactions := [],
    domains := [], fallback := [] }

/-- An image as fetched: header, descriptors, records, the compatibility section's records (R99), the bytes of the
sections without records (0x20 code, 0x21 data, 0x7F annex), the two halves of the signature that closes it, and
whether that signature verifies under the slot it names (R101 step 4). The byte string that these fields spell (R79)
is `imageBytes` of Machine/Image.lean. -/
structure Image where
  hdr    : ImageHdr
  descs  : List SecDesc
  compat : List (BitVec 64)
  body   : ImageBody
  code   : List (BitVec 8)
  data   : List (BitVec 8)
  annex  : List (BitVec 8)
  sigR   : BitVec 384
  sigS   : BitVec 384
  sigOk  : Bool
  deriving DecidableEq, Repr

/-- The three images of one pointer (R61 step 6). -/
structure ImageSet where
  structureImg : Image
  steward      : Image
  lane         : Image
  deriving DecidableEq, Repr

/-- What step 2 reads (R50, R61): the fuse words in the order in which they are read, and what they say, since their
layout is open: CRC result, life-cycle code, image pointers, generation minimums per kind and the four roots
(manufacturing, production, returned, test). -/
structure Fuses where
  words    : List (BitVec 32)
  crcOk    : Bool
  lcs      : BitVec 3
  ptrA     : BitVec 48
  ptrB     : BitVec 48
  genStr   : BitVec 32
  genStw   : BitVec 32
  genLane  : BitVec 32
  rootMfg  : BitVec 256
  rootProd : BitVec 256
  rootRet  : BitVec 256
  rootTest : BitVec 256
  vkey1    : Bool
  vkey2    : Bool
  vkey3    : Bool
  vkey4    : Bool
  deriving DecidableEq, Repr

/-- A reading of the margin monitors (R390): smallest path slack, smallest SRAM margin, and which
monitors they come from. -/
structure Margins where
  p      : BitVec 8
  s      : BitVec 8
  pworst : BitVec 5
  sworst : BitVec 3
  deriving DecidableEq, Repr

/-- What a self-test of step 9 and the array clear of step 8 find (R63): failed physical banks of each
array, the two Weir copies, the clock monitor. -/
structure SelfTest where
  ssaBad  : List (BitVec 6)
  plaBad  : List (BitVec 6)
  weirA   : Bool
  weirB   : Bool
  clockOk : Bool
  deriving DecidableEq, Repr

/-- The adapted codes of a lane (R310): CTLE, CDR bandwidth, sampling phase. -/
structure LaneCodes where
  ctle : BitVec 4
  bw   : BitVec 3
  ph   : BitVec 6
  deriving DecidableEq, Repr

/-- How a memory-port operation of the block ended (R14, R29): with DONE, with FAULT, or with a reserved RRESP
code. -/
inductive MemEnd where
  | done
  | fault
  | reserved
  deriving DecidableEq, Repr

/-- A received reserved code is treated as FAULT (R14). -/
def MemEnd.ok : MemEnd → Bool
  | .done => true
  | .fault => false
  | .reserved => false

/-- The operation code and the slot of a key message (R48). -/
structure KeyDest where
  op   : BitVec 3
  slot : BitVec 4
  deriving DecidableEq, Repr

/-- The end of a staging: how the fetch ended, and what it brought (R107). -/
structure StagedRead where
  resp : MemEnd
  img  : Image
  deriving DecidableEq, Repr

/-- A TS block (R303): phase, logical lane, lane count, sender, de-emphasis request, margin result; `mapped`
is the sender's mapped de-emphasis code, which bounds its request (R309). -/
structure TsMsg where
  phase   : BitVec 8
  logical : BitVec 8
  lanes   : BitVec 8
  devid   : BitVec 3
  port    : BitVec 2
  deemph  : BitVec 4
  mapped  : BitVec 4
  reqVal  : Bool
  pass    : Bool
  deriving DecidableEq, Repr

/-- Why a lane is declared lost (R306): the blocks that it receives, the CDR lock monitor, or the end of its signal. A
block is its 130 bits in line order, the first one bit 0 (R302). -/
inductive LossWhy where
  | blocks (bs : List (BitVec 130))
  | cdr
  | signal
  deriving DecidableEq, Repr

/-- A lane and why it is lost (R306). -/
structure LaneLost where
  lane : BitVec 4
  why  : LossWhy
  deriving DecidableEq, Repr

/-- A lane and blocks that it receives, in line order (R302, R306). -/
structure LaneBlocks where
  lane   : BitVec 4
  blocks : List (BitVec 130)
  deriving DecidableEq, Repr

/-- A lane and bits that its checker receives (R323). -/
structure LaneBits where
  lane : BitVec 4
  bits : List Bool
  deriving DecidableEq, Repr

/-- An ALIGN block's count, and the lanes on which it has come (R303, R305). -/
structure AlignBlk where
  count : BitVec 32
  heard : BitVec 4
  deriving DecidableEq, Repr

/-- How an attempt ended (R298, R307, R308): whether DETECT and LOCK were reached in their bounds, the bit errors in
65,536 bits at the eye centre and at +10/64 and -10/64 UI, and the skew of the lane against the port's other lanes, in
picoseconds. -/
structure Attempt where
  locked : Bool
  errMid : BitVec 17
  errHi  : BitVec 17
  errLo  : BitVec 17
  skew   : BitVec 16
  deriving DecidableEq, Repr

/-- The world's answers to a cold start (R61): straps, debug enables, RST_WDT, fuses, PLL and ROM results, how each
pointer's fetch ended and what it returned, VGOOD and margins of step 7, self-test, the TS blocks that each lane hears
in step 11, the physical lanes that pass training but for their skew, their skews, and the codes they reach. -/
structure StartEnv where
  devid   : BitVec 3
  hwRole  : BitVec 2
  imgSel  : Bool
  dbg     : BitVec 4
  rstWdt  : Bool
  fuses   : Fuses
  pllOk   : Bool
  romOk   : Bool
  respA   : MemEnd
  respB   : MemEnd
  fetchA  : ImageSet
  fetchB  : ImageSet
  vgoodOk : Bool
  margins : List Margins
  test    : SelfTest
  ts      : List (BitVec 4 × TsMsg)
  trained : BitVec 16
  skews   : List (BitVec 16)
  codes   : List LaneCodes
  deriving DecidableEq, Repr

/-- Which clock the monitor found wrong (R428 class 0x12). -/
inductive ClockId where
  | sclk
  | hclk
  | aoclk
  deriving DecidableEq, Repr

/-- A watched input of DORMANT (R388). -/
inductive WakeInput where
  | wired (line : BitVec 10) (level : Bool)
  | upstream (port : BitVec 4)
  | portReset (port : BitVec 4)
  | keyPort
  | register
  | doorbell
  deriving DecidableEq, Repr

/-- A slice source record of a save image (R294). -/
structure SaveSrc where
  entry : BitVec 64
  age   : BitVec 32
  link  : BitVec 32
  deriving DecidableEq, Repr

/-- A slice context record of a save image (R294); the stack top first. -/
structure SaveCtx where
  vbase  : BitVec 64
  dlvCfg : BitVec 32
  flags  : BitVec 32
  cnt0   : BitVec 64
  cnt1   : BitVec 64
  cnt2   : BitVec 64
  stack  : List (BitVec 64)
  deriving DecidableEq, Repr

/-- A slice group record of a save image (R294). -/
structure SaveGrp where
  limit   : BitVec 8
  count   : BitVec 8
  rrptr   : BitVec 8
  flags   : BitVec 8
  members : List (BitVec 16)
  deriving DecidableEq, Repr

/-- A save image (R294). `reservedOk`: every reserved byte is zero. A source record not listed is all zero. -/
structure SaveImage where
  magic      : BitVec 32
  format     : BitVec 16
  mode       : BitVec 8
  flags      : BitVec 8
  hwver      : BitVec 16
  slice      : BitVec 12
  units      : BitVec 16
  nctx       : BitVec 16
  ngrp       : BitVec 16
  devid      : BitVec 3
  length     : BitVec 32
  freezeTick : BitVec 64
  shares     : BitVec 64
  ceiling    : BitVec 8
  profile    : BitVec 8
  hwm        : BitVec 16
  digest     : BitVec 384
  reservedOk : Bool
  cpl        : BitVec 64
  dl         : BitVec 64
  merged     : BitVec 32
  wdrawn     : BitVec 32
  refs       : List (BitVec 32)
  ctxs       : List SaveCtx
  grps       : List SaveGrp
  srcs       : List (BitVec 21 × SaveSrc)
  deriving DecidableEq, Repr

/-- The end of a restore's reads: how they ended, and the image they brought (R292). -/
structure RestoreRead where
  resp : MemEnd
  img  : SaveImage
  deriving DecidableEq, Repr

/-- The body of a link frame (R336). -/
inductive FrameBody where
  | event   (stamp : BitVec 64) (gsrc : BitVec 24) (kind : BitVec 8) (proxy : BitVec 14)
  | proxy   (op : BitVec 8) (gsrc : BitVec 24) (entry : BitVec 64) (stamp : BitVec 32)
            (flags : BitVec 8) (proxy : BitVec 14)
  | pret    (op : BitVec 8) (cause : BitVec 8) (gsrc : BitVec 24) (proxy : BitVec 14)
            (stamp : BitVec 32) (flags : BitVec 8)
  | summary (entries : List (BitVec 20))
  | time    (bytes : BitVec 120)
  | alarm   (stamp : BitVec 64) (org : BitVec 3) (line : BitVec 5) (token : BitVec 96)
  | topo    (op : BitVec 8) (epoch : BitVec 8) (hw : BitVec 3) (members : BitVec 8) (data : BitVec 128)
  | tag     (mac : BitVec 96) (first : BitVec 12) (count : BitVec 8)
  | auth    (step : BitVec 8) (offset : BitVec 16) (chunk : BitVec 144)
  | ack     (e2eAck : BitVec 16)
  deriving DecidableEq, Repr

/-- A link frame (R335); `e2e` is the E2E number of EVENT, PROXY and PRET frames (R341). -/
structure Frame where
  urgent : Bool
  nak    : Bool
  replay : Bool
  seq    : BitVec 12
  ack    : BitVec 12
  dst    : BitVec 3
  org    : BitVec 3
  e2e    : BitVec 16
  body   : FrameBody
  deriving DecidableEq, Repr

/-- A received frame: its 32 bytes, byte 0 lowest (R335). -/
structure RxFrame where
  bytes : BitVec 256
  deriving DecidableEq, Repr

/-- Where a received EVENT, PROXY or PRET frame came from (R335, R341). -/
structure RxHdr where
  org : BitVec 3
  e2e : BitVec 16
  deriving DecidableEq, Repr

/-- The HELLO message (R342). -/
structure HelloMsg where
  nonce   : BitVec 256
  devid   : BitVec 3
  port    : BitVec 2
  hwRole  : BitVec 2
  epoch   : BitVec 8
  bootcnt : BitVec 16
  lanes   : BitVec 3
  hwver   : BitVec 16
  deriving DecidableEq, Repr

/-- What the certificate checks of R343 find: the form checks of each certificate, the authority's
fingerprint, the issuer and signature checks of the device certificate, its serial number; and the message as it came,
both certificates in DER (R342). -/
structure CertMsg where
  der         : List (BitVec 8)
  formOk      : Bool
  fingerprint : BitVec 384
  caOk        : Bool
  issuerOk    : Bool
  sigOk       : Bool
  usageOk     : Bool
  serial      : BitVec 96
  deriving DecidableEq, Repr

/-- The KEYX message (R342): the partner's ephemeral key and whether its signature verifies under the
device certificate's key (R343). -/
structure KeyxMsg where
  pub   : BitVec 776
  sigOk : Bool
  deriving DecidableEq, Repr

/-- Bytes 1 to 15 of a MARKER (R337), and the instant this end measured for it. -/
structure MarkerMsg where
  hops  : BitVec 3
  state : BitVec 3
  seq   : BitVec 8
  rseq  : BitVec 8
  tA    : BitVec 48
  tB    : BitVec 48
  deriving DecidableEq, Repr

/-- A TOPO frame's payload (R336). -/
structure TopoMsg where
  epoch   : BitVec 8
  hw      : BitVec 3
  members : BitVec 8
  data    : BitVec 128
  deriving DecidableEq, Repr

/-- The reply material a mailbox command takes from OTP and the signing engine (R113, R414). -/
structure MailEnv where
  devCert : List (BitVec 8)
  caCert  : List (BitVec 8)
  deriving DecidableEq, Repr

/-- A counter register of a slice (R171, R196, R432). -/
inductive SliceCnt where
  | completions
  | merged
  | withdrawn
  | deadlines
  | refused (n : BitVec 2)
  deriving DecidableEq, Repr

/-- A counter register that CNT_RD names (R409): of a source, a context, a slice or a group. -/
inductive CntSel where
  | source (n : BitVec 21)
  | context (c : BitVec 10) (n : BitVec 2)
  | slice (i : BitVec 12) (k : SliceCnt)
  | group (g : BitVec 9)
  deriving DecidableEq, Repr

/-- The commands, in the table's order. -/
inductive Instr where
  | aoPowerOn
  | coldReset (width : Nat)
  | coldStart (e : StartEnv)
  | cascadeJoinTimeout
  | warmReset (width : Nat)
  | warmResetRelease (t : SelfTest)
  | portReset (n : BitVec 4)
  | portResetRelease (n : BitVec 4)
  | awakeChange (n : BitVec 4) (mask : BitVec 32)
  | clockFault (clk : ClockId) (stopped : Bool)
  | debugEnableChange (en : BitVec 4)
  | doorbellSingle (r : DbReq)
  | doorbellRange (r : DbReq)
  | doorbellRead (r : DbReq)
  | windowEntryGrant
  | admissionCycle
  | spillwayRelease
  | starvationGuard
  | firingResolution (r : Resolution)
  | wiredCapture (line : BitVec 10) (level : Bool)
  | dormantWakeLatch (w : WakeInput) (refclk : Bool)
  | srcFire (r : RegOp)
  | srcCfgLoWrite (r : RegOp) (v : BitVec 32)
  | srcCfgCommit (r : RegOp) (d : CfgData)
  | srcEnWrite (r : RegOp) (en : Bool)
  | selSrcWrite (r : RegOp) (v : BitVec 32)
  | selTgtWrite (r : RegOp) (v : BitVec 32)
  | selLaneWrite (r : RegOp) (v : BitVec 32)
  | tgtDlvCfgWrite (r : RegOp) (v : BitVec 32)
  | groupMemberAdd (r : RegOp) (m : BitVec 13)
  | groupMemberRemove (r : RegOp) (m : BitVec 13)
  | smapLookup (r : RegOp) (pid : BitVec 20)
  | tbCountRead (r : RegOp) (part : Part)
  | registerWrite (q : RawReq)
  | weirPass (o : PassOp)
  | weirSelftestEnd (aPass bPass : Bool)
  | shadowCheck (ctx : BitVec 10) (agree : Bool)
  | linkStoreRebuildEnd
  | wheelSlotVisit (v : SlotVisit)
  | present (n : BitVec 4)
  | revoke (n : BitVec 4)
  | take (u : UpMsg)
  | decline (u : UpMsg)
  | complete (u : UpMsg)
  | declineHoldExpiry (c : BitVec 10)
  | windowedMaskExpiry (src : BitVec 21)
  | presentationTimeout (c : BitVec 10)
  | presentationRetire (c : BitVec 10)
  | retiredTagFree (n : BitVec 4) (tag : BitVec 12)
  | downstreamStall (n : BitVec 4)
  | scrubStep (ssa pla : RowRead)
  | rebuildStep (pla : Bool)
  | fatalDumpEnd (m : MemEnd) (cycles : BitVec 23)
  | logWriteResponse (m : MemEnd)
  | slcLogBaseWrite (r : RegOp) (v : BitVec 64)
  | logBaseSwitch (slice : BitVec 12)
  | stage (r : RegOp)
  | stagingEnd (r : StagedRead)
  | commit (r : RegOp)
  | discard (r : RegOp)
  | structureEpoch
  | shareCommit (r : RegOp)
  | creditEpoch
  | activate (r : RegOp)
  | quiesce (r : RegOp)
  | quiesceDrainComplete (slice : BitVec 12)
  | reset (r : RegOp)
  | forceReset (r : RegOp)
  | slicePurgeEnd (slice : BitVec 12)
  | freeze (r : RegOp)
  | save (r : RegOp)
  | saveEnd (slice : BitVec 12) (m : MemEnd)
  | restore (r : RegOp)
  | restoreEnd (slice : BitVec 12) (r : RestoreRead)
  | thaw (r : RegOp)
  | load (k : KeyDest) (beats : List (BitVec 64))
  | invalidateSlot (slot : BitVec 4) (beats : Nat)
  | invalidateRoot (beats : Nat)
  | keyStoreCommitEnd
  | stewardWatchdogExpiry
  | safSigClear (r : RegOp) (v : BitVec 32)
  | safTmrWrite (r : RegOp) (v : BitVec 32)
  | logTailWrite (r : RegOp) (v : BitVec 32)
  | traceRd (idx : BitVec 12)
  | cntRd (c : CntSel)
  | stwHalt
  | stwStep
  | aryRd (pla : Bool) (src : BitVec 21)
  | aryWr (pla : Bool) (src : BitVec 21) (v : BitVec 64)
  | mailboxClaim (r : RegOp)
  | mailboxRelease (r : RegOp)
  | versions (r : RegOp)
  | attest (r : RegOp)
  | certs (r : RegOp)
  | prodPubkey (r : RegOp)
  | mailboxCommandEnd (e : MailEnv)
  | levelRequest (r : RegOp) (target : BitVec 2)
  | plFloorWrite (r : RegOp) (floor : BitVec 2)
  | vgoodReturn (ms : List Margins)
  | vgoodTimeout
  | sleepRequest (r : RegOp) (v : BitVec 64)
  | domainVote (d : BitVec 5)
  | prepareTimeout
  | pwrAck (ack : BitVec 28)
  | dozeRegate (d : BitVec 5)
  | domainWake (ds : BitVec 28)
  | wakeTimeout (d : BitVec 5)
  | holdRelease (r : RegOp) (v : BitVec 32)
  | holdSet (r : RegOp) (v : BitVec 32)
  | ageingReading (m : Margins)
  | ageingRestep (m : Margins)
  | aoclkCalibration (refCycles : BitVec 32)
  | markerSend (p : BitVec 2)
  | marker (p : BitVec 2) (m : MarkerMsg) (received : BitVec 48)
  | time (p : BitVec 2) (m : MarkerMsg)
  | markerLossTimeout
  | holdoverExpiry
  | pllLost
  | countMismatch (good : BitVec 64)
  | rateCheck (ticks : BitVec 32)
  | laneLoss (x : LaneLost)
  | ts (l : BitVec 4) (m : TsMsg)
  | trainingAttemptEnd (l : BitVec 4) (r : Attempt) (c : LaneCodes)
  | failedLaneRetry (l : BitVec 4)
  | driftGuard (l : BitVec 4) (c : LaneCodes)
  | alignPeriod (p : BitVec 2)
  | align (p : BitVec 2) (mask : BitVec 4) (b : AlignBlk)
  | laneDown (p : BitVec 2) (k : BitVec 2) (reason : BitVec 2) (mask : BitVec 4)
  | downAck (p : BitVec 2) (mask : BitVec 4)
  | laneDownRepeat (p : BitVec 2)
  | downAckTimeout (p : BitVec 2)
  | up (p : BitVec 2) (k : BitVec 2)
  | electricalIdleEntry (p : BitVec 2)
  | eios (p : BitVec 2)
  | electricalIdleExit (p : BitVec 2)
  | squelchBurst (p : BitVec 2)
  | idleExitTimeout (p : BitVec 2)
  | apply (r : RegOp)
  | retrain (r : RegOp)
  | injOne (r : RegOp)
  | prbsPeriodicInject (l : BitVec 4)
  | prbsStatusRead (r : RegOp)
  | event (h : RxHdr) (stamp : BitVec 64) (gsrc : BitVec 24) (kind : BitVec 8) (proxy : BitVec 14)
  | proxyOpen (h : RxHdr) (gsrc : BitVec 24) (entry : BitVec 64) (stamp : BitVec 32)
      (flags : BitVec 8)
  | proxyCfg (h : RxHdr) (gsrc : BitVec 24) (entry : BitVec 64) (proxy : BitVec 14)
  | proxyClose (h : RxHdr) (gsrc : BitVec 24) (proxy : BitVec 14)
  | proxyCloseDiscard (h : RxHdr) (gsrc : BitVec 24) (proxy : BitVec 14)
  | proxyHandoff (h : RxHdr) (gsrc : BitVec 24) (entry : BitVec 64) (stamp : BitVec 32)
      (flags : BitVec 8)
  | handoffSelectTimeout (proxy : BitVec 14)
  | opened (h : RxHdr) (gsrc : BitVec 24) (proxy : BitVec 14)
  | refused (h : RxHdr) (gsrc : BitVec 24) (cause : BitVec 8) (proxy : BitVec 14)
  | returned (h : RxHdr) (gsrc : BitVec 24) (proxy : BitVec 14) (stamp : BitVec 32) (flags : BitVec 8)
  | handback (h : RxHdr) (gsrc : BitVec 24) (proxy : BitVec 14) (stamp : BitVec 32) (flags : BitVec 8)
  | summarySend
  | summary (p : BitVec 2) (org : BitVec 3) (entries : List (BitVec 20))
  | alarm (p : BitVec 2) (stamp : BitVec 64) (org : BitVec 3) (line : BitVec 5) (token : BitVec 96)
  | quarantineAlarmRepeat (p : BitVec 2)
  | topoDiscover (p : BitVec 2) (m : TopoMsg)
  | topoReport (org : BitVec 3) (serial : BitVec 96) (pairings : BitVec 32) (aligned : Bool)
  | topoReady (p : BitVec 2) (m : TopoMsg)
  | heartbeatSend
  | topoHeartbeat (p : BitVec 2) (m : TopoMsg)
  | headwaterTakeover
  | topoMap (p : BitVec 2) (m : TopoMsg)
  | topoExclude (m : TopoMsg)
  | topoQuarantine (p : BitVec 2)
  | batchClose (p : BitVec 2)
  | batchTag (p : BitVec 2) (frames : List RxFrame) (mac : BitVec 96) (first : BitVec 12)
      (count : BitVec 8)
  | ack (org : BitVec 3) (e2eAck : BitVec 16)
  | replayTimeout (p : BitVec 2)
  | hello (p : BitVec 2) (m : HelloMsg)
  | cert (p : BitVec 2) (m : CertMsg)
  | keyx (p : BitVec 2) (m : KeyxMsg)
  | confirm (p : BitVec 2) (ok : Bool)
  | portRetry (p : BitVec 2)
  | one (r : RegOp)
  | registerRead (q : RawReq)
  | alwaysOnReset
  | blockLock (b : LaneBlocks)
  | prbsSync (b : LaneBits)
  | prbsSyncLoss (b : LaneBits)
  | pllRelock
  | testLogicReset
  deriving DecidableEq, Repr

end Sys2Proof
end

