-- ==== Sys2Proof/Decode.lean ====
section
/-! DEFINITION. The decoder of table words. -/

namespace Sys2Proof

/-- The command a word spells by the opcode table's bits. No row of the table gives bits: the block takes
commands from its ports, not from words, so no word spells one. -/
def decodeTableWord (_nbits _w : Nat) : Option Instr := none

end Sys2Proof
end

