-- ==== Sys2Proof/Config.lean ====
section
/-!
DEFINITION. What the manual leaves open or takes from a standard it does not reproduce: opaque constants,
of which no proof can see a value. The first argument of a free value is the counter `State.free`
(assumption log entry 1).
-/

namespace Sys2Proof.Config

/-- How far the Gray-coded crossing holds a clocked stamp back, before R255's bound is applied. -/
opaque stampLag : Nat → Nat

/-- The HCLK period chosen by the chip, before R8's bounds are applied. -/
opaque hclkRaw : Nat → Nat

/-- The bit of a frame that an injected corruption inverts; R367 leaves the choice to the block. -/
opaque corruptBit : BitVec 224 → Nat

/-- The request of a lane's adaptation firmware for the partner's de-emphasis, by physical lane and phase: code in bits
3 to 0, valid in bit 4 (R307). -/
opaque deemphRequest : Nat → Nat → BitVec 5

/-- The bits with which a PRBS generator starts, by physical lane: 31 of them, not all zero in effect; R322 leaves them
open. -/
opaque prbsSeed : Nat → BitVec 31

/-- ATAG of a memory transaction, by how many have been made before it; R13 leaves the choice to the block. -/
opaque memTag : Nat → BitVec 8

/-- Address of the fuse word that step 2 reads as its `k`-th; the layout of the fuses is open (R50). -/
opaque fuseAddr : Nat → BitVec 10

/-- Which of the free tags of a port a PRESENT takes; R227 leaves the choice to the block. -/
opaque freeTag : Nat → Nat

/-- NIST SP 800-38F KW unwrap: key-encryption key and wrapped words; none when the integrity check fails
(R417, R421, R423). -/
opaque kwUnwrap : BitVec 256 → List (BitVec 64) → Option (BitVec 512)

/-- NIST SP 800-38F KW wrap (R421). -/
opaque kwWrap : BitVec 256 → BitVec 512 → List (BitVec 64)

/-- The key-encryption key of a LOAD: HKDF-SHA-384 of the parent's key, of a length in units of 8 bytes,
with info BOLRIL-KW, the slot and the header beat (R417). -/
opaque kekOf : Nat → BitVec 512 → Nat → BitVec 64 → BitVec 256

/-- Bytes of the steward firmware's own state in a fatal dump, before R440's limit is applied. -/
opaque stewardBytes : Nat → Nat

/-- A byte of that state (R440). -/
opaque stewardByte : Nat → BitVec 8

/-- What the dump's reads find of an array's row: unrecoverable in bit 0, corrected in bit 1 (R440). -/
opaque rowFound : Nat → Nat

/-- The AES-256 key of the key store under a root: HKDF-SHA-384, info BOLRIL-STORE (R421). -/
opaque storeKey : BitVec 256 → BitVec 256

/-- A root as input keying material, by the 256-bit fuse secret (R413). -/
opaque identityKey : BitVec 256 → BitVec 512

/-- The link key of a root, HKDF-SHA-384 with info BOLRIL-LINK (R415). -/
opaque linkKey : BitVec 256 → BitVec 512

/-- The public key of an identity, 97 bytes uncompressed (R413, R414). -/
opaque publicKey : BitVec 512 → BitVec 776

/-- ECDSA P-384 signature over the SHA-384 of a byte string (R113). -/
opaque sign : BitVec 512 → List (BitVec 8) → List (BitVec 8)

/-- A session key of a port (R344): link key, both nonces and ephemeral keys, the info string's devices
and ports, and which of the six outputs. -/
opaque sessionKey : BitVec 512 → BitVec 256 → BitVec 256 → BitVec 776 → BitVec 776 → Nat → Nat → BitVec 256

/-- The nonce of a HELLO sent by this device and its ephemeral public key, one pair per attempt (R342). -/
opaque ownNonce : Nat → BitVec 256

/-- The bytes of a HELLO message; R342 names its fields without a layout. -/
opaque helloBytes : HelloMsg → List (BitVec 8)

/-- The CERT message of this device: its certificate and the authority's, each DER (R342). -/
opaque certificates : List (BitVec 8)

/-- The ephemeral public key of an authentication (R342). -/
opaque ownEphemeral : Nat → BitVec 776

/-- The alarm token: leftmost 96 bits of AES-256 of the block of counter n and 64 zero bits (R363). -/
opaque alarmToken : BitVec 256 → BitVec 64 → BitVec 96

/-- The 96-bit AES-256-GMAC of a batch: key, IV prefix, batch counter, the frames' bytes (R346). -/
opaque gmac : BitVec 256 → BitVec 32 → BitVec 64 → List (BitVec 224) → BitVec 96

/-- FAIL of a staging whose fetch met a memory FAULT (R29, R107 state none). -/
opaque stagingFaultCode : Nat → Nat

/-- Which free proxy of the store an OPEN or HANDOFF takes; R354 leaves the choice to the block. -/
opaque freeProxy : Nat → Nat

/-- CAUSE of a PRET REFUSED for NO_PROXY (0), WORLD (1) and NOT_IN_USE (2); R354 gives the names only. -/
opaque refuseCause : Nat → BitVec 8

/-- Fraction of a tick, in 1/64 UI, at which a marker crosses the serialiser (R259, R337). -/
opaque markerFraction : Nat → Nat

/-- The internal asymmetry cal_asym that a training of a physical lane measures (R260), in 1/64 UI, a signed word. -/
opaque calAsym : Nat → Nat → BitVec 32

/-- The serial number in the subject of this device's certificate (R334, R343). -/
opaque deviceSerial : BitVec 96

/-- A reading of the margin monitors at start-up step 7 beyond those that the cold start gives (R392): smallest slack in
bits 7 to 0, smallest SRAM margin in 15 to 8, their monitors in 20 to 16 and 23 to 21. -/
opaque bootMargins : Nat → BitVec 24

/-- Whether REFCLK stopped while the block was DORMANT, so that the always-on domain counted on AOCLK (R253). -/
opaque refclkStopped : Nat → Bool

/-- The check bits of an SSA entry's 64 data bits: a (72,64) SEC-DED code (R144). -/
opaque ssaCheck : BitVec 64 → BitVec 8

/-- The check bits of a PLA entry's 56 data bits: a SEC-DED code (R146). -/
opaque plaCheck : BitVec 64 → BitVec 8

/-- TIME of a boot log step entry, in AOCLK cycles, before R72 cuts it to 23 bits. -/
opaque bootTime : Nat → Nat

/-- DETAIL (low 16 bits) and row (next 16) of the BANK_FAILED record of a bank that start-up finds failed; R428
gives a DETAIL for banks that fail in service only. -/
opaque startBank : Nat → Nat

end Sys2Proof.Config
end

