-- ==== Sys2Proof/Machine/Bits.lean ====
section
/-!
DEFINITION. Bit fields of register words and saturating counters.
-/

namespace Sys2Proof.Machine

/-- The field of width `w` at bit `lo` of a word, as a number. -/
def fld {n : Nat} (v : BitVec n) (lo w : Nat) : Nat := (v.toNat >>> lo) % 2 ^ w

/-- Bit `i` of a word. -/
def bit {n : Nat} (v : BitVec n) (i : Nat) : Bool := v.getLsbD i

/-- One bit as a number. -/
def b2n (b : Bool) : Nat := if b then 1 else 0

/-- A word made of fields `(lo, width, value)`; a value is cut to its width. -/
def pack (fs : List (Nat × Nat × Nat)) : BitVec 64 :=
  fs.foldl (fun acc f => acc ||| (BitVec.ofNat 64 ((f.2.2 % 2 ^ f.2.1) <<< f.1))) 0

/-- Count up by one, holding at the largest value of a counter of `w` bits. -/
def satInc (w n : Nat) : Nat := if n + 1 < 2 ^ w then n + 1 else 2 ^ w - 1

/-- Count up by `k`, holding at the largest value of a counter of `w` bits. -/
def satAdd (w n k : Nat) : Nat := if n + k < 2 ^ w then n + k else 2 ^ w - 1

/-- Index of the lowest set bit below `n`, if any. -/
def lowestBit (f : Nat → Bool) : Nat → Option Nat
  | 0 => none
  | n + 1 => match lowestBit f n with
    | some i => some i
    | none => if f n then some n else none

/-- Difference of two 32-bit stamps modulo 2^32 (R147). -/
def stampDiff (a b : BitVec 32) : Nat := (a - b).toNat

end Sys2Proof.Machine
end

