-- ==== Sys2Proof/Machine/Regs.lean ====
section
/-!
DEFINITION. The registers of the register index (R450) as names, and a register access after its address
has been decoded. These are types only; what each register does is in RegRead.lean and RegWrite.lean.
-/

namespace Sys2Proof.Machine

/-- Every register of R450, a family as one constructor with its index. -/
inductive Reg where
  | glbHwver | glbBootst | glbBootlogSel | glbBootlog | glbImgst | glbImgStageAddr | glbImgStageLen
  | glbEpochCtl | glbEpochAt | glbEpochLast | glbStructDigest (n : Nat) | glbCflSt | glbCflLastref
  | glbCflRefCnt (n : Nat) | glbWheelSt | glbSmapIdx | glbSmapData | glbSmapLookup | glbDumpAddr
  | glbDumpLen | glbDumpCtl
  | selSrc | selTgt | selSlc | selLane | selCnt
  | tgtVbase | tgtDlvCfg | tgtCtl | tgtRun | tgtPres | tgtStkIdx | tgtStkData | tgtDlvCnt (n : Nat)
  | tgtGrpCfg | tgtGrpSt | tgtGrpMidx | tgtGrpMdata | tgtGrpMember
  | srcCfg | srcEn | srcFire | srcLine | srcWcnt
  | slcCtl | slcSt | slcInfo | slcShare | slcShareLive | slcCommit | slcSpill | slcLogBase | slcLogHead
  | slcLogSt | slcCplCnt | slcMergedCnt | slcWdrawnCnt | slcDlCnt | slcDlLast | slcXferAddr
  | slcXferLen | slcXferSt | slcRefCnt (n : Nat) | slcErrIdx | slcErrData (n : Nat)
  | lnkLaneCfg | lnkLoop | lnkPrbsCtl | lnkApply | lnkLaneSt | lnkLaneCnt | lnkPrbsSt | lnkPrbsBits
  | lnkPortSt | lnkPortCnt (n : Nat) | lnkInjCtl | lnkCasSt | lnkInjEn
  | pwrPlCtl | pwrPlFloor | pwrPlSt | pwrSleepCtl | pwrSleepSt | pwrDomSt | pwrHold | pwrHoldSet
  | pwrEddy | pwrSt | pwrCnt | pwrAgeSt | pwrLvl (n : Nat)
  | safSsaSt | safPlaSt | safScrubSt | safWeirSt | safDlvErr | safSig | safTmr | safLogHead
  | safLogTail | safLogIdx | safLogData (n : Nat) | safLogSt | safClsIdx | safClsCnt
  | tbCount | tbSt | tbDly (p : Nat) | tbAsym (p : Nat)
  | stwMbSt | stwMbOwn | stwMbCmd | stwMbData (w : Nat)
  | keySlotSt (n : Nat) | keySlotPgen (n : Nat) | keyRootSt
  deriving DecidableEq, Repr

/-- One register reached by an access: the register, the part of it, the write data of that part in
its place, and how far up the part's read data travels (R17, R442). -/
structure Hit where
  reg   : Reg
  part  : Part
  data  : BitVec 64
  shift : Nat
  deriving DecidableEq, Repr

/-- A register access with its address decoded; `low`: it lies in the global or the mailbox window, `mail`: in the mailbox window, `at_`: the count at
its request transfer (R19, R255). -/
structure Acc where
  write : Bool
  low   : Bool
  mail  : Bool
  world : Bool
  pid   : BitVec 20
  tag   : BitVec 8
  page  : Option Nat
  hits  : List Hit
  at_   : Tick := 0
  deriving DecidableEq, Repr

end Sys2Proof.Machine
end

