-- ==== Sys2Proof/Machine/SMap.lean ====
section
/-!
DEFINITION. Sparse maps with Nat keys, the one representation of every large array of the block: a list
of key and value pairs in one canonical form, keys strictly rising and no value equal to the default,
so that equal arrays are equal lists.
-/

namespace Sys2Proof.Machine

/-- A sparse array: pairs of index and value. -/
abbrev SMap (α : Type) := List (Nat × α)

/-- The value at index `i`, or the default where the index is not listed. -/
def SMap.get {α : Type} (d : α) : SMap α → Nat → α
  | [], _ => d
  | (k, v) :: m, i => if i = k then v else SMap.get d m i

/-- Insert or replace the pair of index `k`, keeping the keys rising. -/
def SMap.put {α : Type} (k : Nat) (v : α) : SMap α → SMap α
  | [] => [(k, v)]
  | (j, w) :: m =>
    if k < j then (k, v) :: (j, w) :: m
    else if k = j then (k, v) :: m
    else (j, w) :: SMap.put k v m

/-- Remove index `k`. -/
def SMap.erase {α : Type} (k : Nat) : SMap α → SMap α
  | [] => []
  | (j, w) :: m => if j = k then SMap.erase k m else (j, w) :: SMap.erase k m

/-- Write `v` at index `k`: a value equal to the default is not listed. -/
def SMap.set {α : Type} [DecidableEq α] (d : α) (m : SMap α) (k : Nat) (v : α) : SMap α :=
  if v = d then SMap.erase k m else SMap.put k v m

/-- Change the value at index `k`. -/
def SMap.upd {α : Type} [DecidableEq α] (d : α) (m : SMap α) (k : Nat) (f : α → α) : SMap α :=
  SMap.set d m k (f (SMap.get d m k))

/-- Change every listed value; one that becomes the default is no longer listed. -/
def SMap.mapVals {α β : Type} [DecidableEq β] (d : β) (f : Nat → α → β) : SMap α → SMap β
  | [] => []
  | (k, v) :: m => if f k v = d then SMap.erase k (SMap.mapVals d f m) else (k, f k v) :: SMap.mapVals d f m

/-- Every key is above `lo`, keys rise strictly. -/
def SMap.risesFrom {α : Type} : Option Nat → SMap α → Bool
  | _, [] => true
  | none, (k, _) :: m => SMap.risesFrom (some k) m
  | some j, (k, _) :: m => decide (j < k) && SMap.risesFrom (some k) m

/-- The canonical form: keys rise strictly and no listed value is the default. -/
def SMap.wf {α : Type} [DecidableEq α] (d : α) (m : SMap α) : Bool :=
  SMap.risesFrom none m && m.all (fun p => decide (p.2 ≠ d))

end Sys2Proof.Machine
end

