-- ==== Sys2Proof/Machine/State.lean ====
section
/-!
DEFINITION. The state of the block as plain data. The default of each field is its value at always-on
power-on, before CRST_N rises (the Reset column of R445); INVENTORY.md names the rule of every field.
-/

namespace Sys2Proof.Machine

/-- Why the machine stops with a fault: for no reason. Every command of the block has an effect that the manual gives or
leaves free, so no meaning raises a fault. Safe. -/
inductive Fault where
  deriving DecidableEq, Repr

/-- Why a command is refused by the model. -/
inductive Refusal where
  /-- The command has no meaning in the model. Raised by the dispatcher only. Safe. -/
  | notModelled (mnemonic : String)
  deriving DecidableEq, Repr

/-! ### Boot, straps, resets -/

/-- GLB_BOOTST.MODE (R71). -/
inductive Mode where
  | starting
  | ready
  | safeMinimal
  | halted
  deriving DecidableEq, Repr

/-- A boot log entry (R72). -/
structure LogEntry where
  step    : Nat
  outcome : Nat
  time    : Nat
  deriving DecidableEq, Repr

/-- Start-up and reset state of the always-on domain (R59, R71 to R78): `crst` and `wrstLow` are the pins, `held` a
cold start that waits for the always-on domain, `warmSafe` that the start ends in SAFE_MINIMAL, `noticed` that the
cascade-ready notice came before step 13 (R69), `warmTest` what the self-test of a warm reset finds whose domains still
wake (R386). -/
structure Boot where
  mode          : Mode := .starting
  cause         : Nat := 0
  step          : Nat := 0
  exit          : Nat := 0
  warm          : Bool := false
  plHeld        : Bool := false
  timeUnaligned : Bool := false
  weirFenced    : Bool := false
  spareSsa      : Bool := false
  sparePla      : Bool := false
  log           : List LogEntry := []
  aoUp          : Bool := false
  crst          : Bool := false
  wrstLow       : Bool := false
  warmSafe      : Bool := false
  poweredOn     : Bool := true
  bootcnt       : Nat := 0
  refusedDb     : Nat := 0
  refusedUp     : Nat := 0
  readyRaise    : List Nat := []
  held          : Option StartEnv := none
  noticed       : Bool := false
  warmTest      : Option SelfTest := none
  deriving DecidableEq, Repr

/-- Straps, debug enables and the fuse shadow (R50, R51, R53, R61, R412): `shadow` are the fuse words as they were
read, `fuseReq` and `fuseAddr` the fuse interface. Debug bits as in R428 class
0x15: IDEN_SEC 3, NIDEN_SEC 2, IDEN_NSEC 1, NIDEN_NSEC 0; `dbgLive` has those that have been 1 since they were
sampled (R410). -/
structure Straps where
  devid    : Nat := 0
  hwRole   : Nat := 0
  imgSel   : Bool := false
  rstWdt   : Bool := false
  dbgSamp  : BitVec 4 := 0
  dbgNow   : BitVec 4 := 0
  dbgLive  : BitVec 4 := 0
  lcs      : Nat := 0
  ptrA     : BitVec 48 := 0
  ptrB     : BitVec 48 := 0
  genStr   : Nat := 0
  genStw   : Nat := 0
  genLane  : Nat := 0
  roots    : List (BitVec 256) := []
  vkeys    : List Bool := []
  shadow   : List (BitVec 32) := []
  fuseReq  : Bool := false
  fuseAddr : BitVec 10 := 0
  deriving DecidableEq, Repr

/-- The fatal sequence and the dump settings (R402, R436, R437). -/
structure Fatal where
  inSeq    : Bool := false
  tick     : Tick := 0
  cls      : Nat := 0
  late     : Nat := 0
  dumpAddr : BitVec 48 := 0
  dumpLen  : Nat := 0
  arrays   : Bool := false
  deriving DecidableEq, Repr

/-! ### Structure image -/

/-- GLB_IMGST.STAGE (R106). -/
inductive StageSt where
  | none
  | fetching
  | verifying
  | staged
  | commitPending
  | refused
  deriving DecidableEq, Repr

/-- The structure store and its staging registers (R84, R106 to R112), with the code and data sections of the firmware
images; `fetchLen` is LEN as the STAGE that began the
fetch found it. -/
structure Img where
  active      : ImageBody := ImageBody.empty
  activeGen   : Nat := 0
  activeVer   : BitVec 32 := 0
  compat      : List (BitVec 64) := []
  digest      : BitVec 384 := 0
  staged      : Option Image := Option.none
  stage       : StageSt := .none
  fail        : Nat := 0
  epochs      : Nat := 0
  stageAddr   : BitVec 48 := 0
  stageLen    : Nat := 0
  fetchLen    : Nat := 0
  at_         : Tick := 0
  last        : Tick := 0
  cleared     : Bool := false
  orphanUnits : List Nat := []
  stwCompat   : List (BitVec 64) := []
  laneCompat  : List (BitVec 64) := []
  stwVer      : BitVec 32 := 0
  stwGen      : Nat := 0
  stwDigest   : BitVec 384 := 0
  laneVer     : BitVec 32 := 0
  laneGen     : Nat := 0
  laneDigest  : BitVec 384 := 0
  stwCode     : List (BitVec 8) := []
  stwData     : List (BitVec 8) := []
  laneCode    : List (BitVec 8) := []
  laneData    : List (BitVec 8) := []
  startFail   : Nat := 0
  compatTest  : BitVec 24 := 0
  deriving DecidableEq, Repr

/-! ### Source state -/

/-- Source states (R145). -/
inductive SState where
  | idle
  | pending
  | presented
  | active
  | activePending
  | completing
  | forwarded
  | reserved
  deriving DecidableEq, Repr

/-- An SSA entry (R144). -/
structure Entry where
  state : SState := .idle
  en    : Bool := false
  trig  : Bool := false
  world : Bool := false
  sov   : Bool := false
  prio  : BitVec 8 := 0
  route : BitVec 13 := 0
  rmode : Bool := false
  vec   : BitVec 16 := 0
  slice : BitVec 12 := 0
  dlb   : BitVec 7 := 0
  deriving DecidableEq, Repr

/-- A PLA entry (R146). -/
structure Pla where
  linked   : Bool := false
  promoted : Bool := false
  missed   : Bool := false
  stamp    : BitVec 32 := 0
  next     : BitVec 21 := 0
  deriving DecidableEq, Repr

/-- What the last clear of a unit wrote (R87): the fields of its preset, if it has one, owner slice and its world; the
STAMP that a restore wrote to it (R292). -/
structure UnitBase where
  preset  : Bool := false
  prio    : BitVec 8 := 0
  route   : BitVec 13 := 0
  rmode   : Bool := false
  vecBase : BitVec 16 := 0
  dlb     : BitVec 7 := 0
  slice   : BitVec 12 := 0
  world   : Bool := false
  stamp   : BitVec 32 := 0
  deriving DecidableEq, Repr

/-- The two arrays: SSA entries as the last clear of their unit plus the entries written since, and PLA
entries; the data bits of the parity word of each row, where they differ from what a clear leaves (R161); the WINDOWED
masks in progress (R151); the sources that ARY_WR has put into COMPLETING, with whether a firing is held (R149); ARY_WR
count (R409). -/
structure Arr where
  base   : SMap UnitBase := []
  cells  : SMap Entry := []
  pla    : SMap Pla := []
  ssaPar : SMap (BitVec 64) := []
  plaPar : SMap (BitVec 64) := []
  masked : List Nat := []
  exits  : List (Nat × Bool) := []
  aryWr  : Nat := 0
  deriving DecidableEq, Repr

/-- Array stripe mode (R170). -/
inductive StripeMode where
  | normal
  | rebuilding
  | spared
  | degraded
  deriving DecidableEq, Repr

/-- The bank stripe of one array (R160 to R170): the status register's fields and, for the scrub pass
in progress, the rows on which each bank returned uncorrectable and correctable words. -/
structure Stripe where
  mode       : StripeMode := .normal
  failed1    : Nat := 63
  failed2    : Nat := 63
  rebuildRow : Nat := 0
  ue         : Nat := 0
  ce         : Nat := 0
  ueRows     : List (Nat × Nat) := []
  ceRows     : List (Nat × Nat) := []
  deriving DecidableEq, Repr

/-- Both stripes and the scrub (R169, R170). -/
structure Stripes where
  ssa    : Stripe := {}
  pla    : Stripe := {}
  passes : Nat := 0
  pmiss  : Nat := 0
  row    : Nat := 0
  deriving DecidableEq, Repr

/-! ### Confluence -/

/-- What a report or firing asks of the source's state (R149). -/
inductive FKind where
  | fire
  | assert
  | deassert
  deriving DecidableEq, Repr

/-- An entry of the in-flight window (R129); `origin` 0 to 3 doorbell port, 4 SRC_FIRE, 5 link. -/
structure WinEnt where
  src     : Nat
  slice   : Nat
  stamp   : Tick
  express : Bool
  expEnt  : Bool
  origin  : Nat
  spilled : Bool
  kind    : FKind
  deriving DecidableEq, Repr

/-- A firing or level report in resolution; `ent` is its window entry, if it has one. -/
structure Firing where
  src   : Nat
  stamp : Tick
  kind  : FKind
  ent   : Option WinEnt
  deriving DecidableEq, Repr

/-- A report waiting in a capture latch (R119). -/
structure Latch where
  valid : Bool := false
  stamp : Tick := 0
  kind  : FKind := .fire
  deriving DecidableEq, Repr

/-- A wired line's sampler (R115 to R120): the filtered pin level, whether the line is captured and its
reference level (after polarity), and the merged-edge counter (R433). -/
structure Line where
  pin    : Bool := false
  level  : Bool := false
  merged : Nat := 0
  deriving DecidableEq, Repr

/-- A doorbell write that waits: for window entries (R130), behind an earlier write of its port, or
untransferred under back-pressure. `next` counts the sources already taken. -/
structure DbWait where
  req         : DbReq
  range       : Bool
  transferred : Bool
  checked     : Bool
  first       : Nat
  count       : Nat
  next        : Nat
  slice       : Nat
  stamp       : Tick
  deriving DecidableEq, Repr

/-- A response of a register or doorbell port: its tag, FAULT or DONE, read data (R14). -/
structure Resp where
  tag   : BitVec 8 := 0
  fault : Bool := false
  data  : BitVec 64 := 0
  deriving DecidableEq, Repr

/-- GLB_CFL_LASTREF (R128). -/
structure LastRef where
  valid : Bool := false
  cause : Nat := 0
  port  : BitVec 2 := 0
  world : Bool := false
  pid   : BitVec 20 := 0
  addr  : BitVec 24 := 0
  deriving DecidableEq, Repr

/-- Global doorbell refusal counters (R432). -/
structure RefCnt where
  format    : Nat := 0
  noSlice   : Nat := 0
  world     : Nat := 0
  outOfPool : Nat := 0
  notReady  : Nat := 0
  closed    : Nat := 0
  deriving DecidableEq, Repr

/-- The confluence (R114 to R143): `dbWait` has the transferred writes first, in transfer order, then those on the
request channels as they came; `emapOdd` are the sources whose bit of the express map is not what their PRIO says,
which only a write past the transitions brings about; `db` are the responses of each doorbell port that may still stand
on its response channel, oldest first (R25, assumption log entry 89); `emapLost` are those whose bit has been found uncorrectable and not
been written since (R133). -/
structure Cfl where
  window    : List WinEnt := []
  res       : List Firing := []
  latches   : SMap Latch := []
  lines     : SMap Line := []
  dbWait    : List DbWait := []
  db        : SMap (List Resp) := []
  peak      : Nat := 0
  allowance : Nat := 192
  sinceC4   : Nat := 0
  vnow      : BitVec 32 := 0
  bestNext  : Nat := 0
  memVnow   : BitVec 32 := 0
  memNext   : Nat := 0
  emapOdd   : List Nat := []
  emapLost  : List Nat := []
  lastRef   : LastRef := {}
  refCnt    : RefCnt := {}
  deriving DecidableEq, Repr

/-! ### Weir -/

/-- The queues of one owner (R176, R178): the sovereign map, the linked proxies of sovereign sources, ascending
(assumption log entry 85), and per priority the sources from head to tail. -/
structure OwnerQ where
  sov : BitVec 16 := 0
  sovPx : List Nat := []
  qs  : SMap (List Nat) := []
  deriving DecidableEq, Repr

/-- A link store word (R179); PREV and WNEXT are the neighbours in the lists. -/
structure Link where
  lprio   : Nat := 0
  inWheel : Bool := false
  deriving DecidableEq, Repr

/-- SAF_WEIR_ST.MODE (R201). -/
inductive WeirMode where
  | lockstep
  | replay
  | selftest
  | fencedA
  | fencedB
  | failed
  deriving DecidableEq, Repr

/-- One input of a pass: an owner's candidate with its rank and stamp (R181, R197). -/
structure PassIn where
  owner : Nat
  src   : Nat
  rank  : Nat
  stamp : BitVec 32
  deriving DecidableEq, Repr

/-- The inputs of a pass (R184, R197): the owners' candidates, the running rank and the free stack entries of the contexts,
and the ports in reset. -/
structure PassIns where
  cands  : List PassIn
  runs   : List (Nat × Nat × Nat)
  resets : List Nat
  deriving DecidableEq, Repr

/-- The Weir (R175 to R201): `eddy` is the eddy register, the inputs of the last 4 passes, newest first (R197),
`visited` is the number of the slot boundary visited last, `worldErr` the sovereign sources whose world check has failed
and been reported (R220), `sleptAt` since when no visit is made (R179, R194, R199) and `longSleep`, while visits are made up
for, the instant since when, where that is 2^31 ticks or more ago (R194). -/
structure Weir where
  queues      : SMap OwnerQ := []
  links       : SMap Link := []
  wheel       : SMap (List Nat) := []
  visited     : Nat := 0
  worldErr    : List Nat := []
  eddy        : List PassIns := []
  sleptAt     : Option Tick := none
  longSleep   : Option Tick := none
  linkRebuild : Bool := false
  lateMax     : Nat := 0
  mode        : WeirMode := .lockstep
  shadowErr   : Nat := 0
  selftests   : Nat := 0
  replays     : Nat := 0
  deriving DecidableEq, Repr

/-! ### Contexts, groups, ports -/

/-- An entry of a priority stack (R229). -/
structure Stk where
  void  : Bool
  rank  : Nat
  tag   : Nat
  src   : Nat
  stamp : BitVec 32
  deriving DecidableEq, Repr

/-- Stages of a presentation (R223). -/
inductive PStage where
  | queued
  | open_
  | revoking
  | withdrawn
  | held
  deriving DecidableEq, Repr

/-- An untaken presentation (R223, R221, R245); `grp` is the group it was offered for, `gone` says that the
source has left PRESENTED while the PRESENT still waits (R226). -/
structure Pres where
  stage    : PStage
  rank     : Nat
  tag      : Nat
  src      : Nat
  grp      : Option Nat
  ptmo     : Nat
  dhold    : Nat
  wantRev  : Bool
  sentRev  : Bool
  timedOut : Bool
  gone     : Bool
  deriving DecidableEq, Repr

/-- The delivery counters of a context (R249). -/
structure DlvCnt where
  takes     : Nat := 0
  declines  : Nat := 0
  revokes   : Nat := 0
  timeouts  : Nat := 0
  stray     : Nat := 0
  order     : Nat := 0
  abandoned : Nat := 0
  void      : Nat := 0
  retired   : Nat := 0
  withdrawn : Nat := 0
  badans    : Nat := 0
  deriving DecidableEq, Repr

/-- A target context (R90, R202, R209, R222, R223, R229, R244, R249). -/
structure Ctx where
  inUse  : Bool := false
  slice  : Nat := 0
  vbase  : BitVec 48 := 0
  ptmo   : Nat := 10
  dhold  : Nat := 256
  grpOut : Bool := false
  stack  : List Stk := []
  pres   : Option Pres := none
  cnt    : DlvCnt := {}
  deriving DecidableEq, Repr

/-- A group (R93, R206, R216). -/
structure Grp where
  defined     : Bool := false
  world       : Bool := false
  slice       : Nat := 0
  limit       : Nat := 0
  preferAwake : Bool := false
  cascadeWide : Bool := false
  members     : List (BitVec 13) := []
  rrptr       : Nat := 0
  empty       : Bool := false
  emptyCnt    : Nat := 0
  lastop      : Nat := 0
  mchg        : Nat := 0
  deriving DecidableEq, Repr

/-- A message waiting on the downstream side of a delivery port (R30); `par` is DLVn_D_PAR. -/
structure DMsg where
  revoke : Bool
  ctx    : Nat
  sov    : Bool
  prio   : Nat
  vaddr  : BitVec 48
  tag    : Nat
  par    : Bool
  deriving DecidableEq, Repr

/-- A message of an upstream queue with its DLVn_U_OP: 1 TAKE, 2 DECLINE, 3 COMPLETE (R30, R228). -/
structure UpEnt where
  op  : Nat
  msg : UpMsg
  deriving DecidableEq, Repr

/-- A delivery port (R30 to R37, R246, R247); `last` is the message that transferred last, `upq` the upstream queue of
at most 1,152 messages, oldest first (R228). -/
structure Port where
  inReset : Bool := false
  awake   : BitVec 32 := 0
  uReady  : Bool := false
  down    : List DMsg := []
  last    : Option DMsg := none
  dstall  : Bool := false
  retired : List (Nat × Nat) := []
  upq     : List UpEnt := []
  deriving DecidableEq, Repr

/-! ### Slices -/

/-- Slice states (R277). -/
inductive SlcState where
  | unassigned
  | active
  | quiescing
  | quiesced
  | frozen
  | restoring
  deriving DecidableEq, Repr

/-- A slice's three shares (R284). -/
structure Share where
  aweight : Nat := 0
  quota   : Nat := 0
  dweight : Nat := 0
  deriving DecidableEq, Repr

/-- What the structure image sets for a slice (R86, R91). -/
structure SlcInfo where
  mediated   : Bool := false
  world      : Bool := false
  windowed   : Bool := false
  strayRaise : Bool := false
  profile    : Nat := 0
  ceiling    : Nat := 0
  memPid     : BitVec 20 := 0
  logLen     : Nat := 0
  extFirst   : Nat := 0
  extUnits   : Nat := 0
  deriving DecidableEq, Repr

/-- A slice's completion log ring (R172 to R174); `newBase` and `stagedLo` are a base that waits for the old ring and a
low half that waits for its high half (R7). -/
structure SlcLog where
  addr    : BitVec 48 := 0
  en      : Bool := false
  newBase : Option (BitVec 64) := none
  stagedLo : Option (BitVec 32) := none
  next    : Nat := 0
  lap     : Bool := true
  fault   : Bool := false
  dropped : Nat := 0
  deriving DecidableEq, Repr

/-- SLC_DL_LAST (R196). -/
structure DlLast where
  valid  : Bool := false
  tick   : BitVec 32 := 0
  global : Bool := false
  src    : Nat := 0
  deriving DecidableEq, Repr

/-- A slice's counters (R171, R196, R432). -/
structure SlcCnt where
  cpl       : BitVec 64 := 0
  merged    : Nat := 0
  wdrawn    : Nat := 0
  dlMissed  : Nat := 0
  dlProm    : Nat := 0
  dlLast    : DlLast := {}
  noSlice   : Nat := 0
  pageMis   : Nat := 0
  world     : Nat := 0
  closed    : Nat := 0
  outOfPool : Nat := 0
  emptyRng  : Nat := 0
  deriving DecidableEq, Repr

/-- A running transfer of a slice (R280). -/
inductive Xfer where
  | none
  | save
  | restore
  | forced
  deriving DecidableEq, Repr

/-- A slice (R271 to R295): `memLast` is the instant of its last memory grant or of its becoming ready for one (R287),
`runAddr` and `runLen` the buffer of the running transfer as its command found it (R7, R295), `xferTot` the bytes it
moves as far as they are known: a restore learns its length from the header (R294). -/
structure Slc where
  state      : SlcState := .unassigned
  clean      : Bool := false
  info       : SlcInfo := {}
  staged     : Share := {}
  pend       : Option Share := none
  live       : Share := {}
  xfer       : Xfer := .none
  purging    : Bool := false
  lastcmd    : Nat := 0
  result     : Nat := 0
  vt         : BitVec 32 := 0
  wasReady   : Bool := false
  lastAdm    : Tick := 0
  memVt      : BitVec 32 := 0
  memLast    : Tick := 0
  hwm        : Nat := 0
  spillPeak  : Nat := 0
  armed      : Bool := true
  log        : SlcLog := {}
  cnt        : SlcCnt := {}
  xferAddr   : BitVec 48 := 0
  xferLen    : Nat := 0
  xferBytes  : Nat := 0
  runAddr    : BitVec 48 := 0
  runLen     : Nat := 0
  xferTot    : Nat := 0
  frozenMsg  : Nat := 0
  purged     : Nat := 0
  freezeTick : Tick := 0
  saveImg    : Option SaveImage := Option.none
  deriving DecidableEq, Repr

/-- An entry of the shared log buffer (R172, R173). -/
structure LogRec where
  slice  : Nat
  ctick  : BitVec 64
  astamp : BitVec 32
  src    : BitVec 32
  deriving DecidableEq, Repr

/-! ### Timebase -/

/-- TB_ST.STATE (R269). -/
inductive TbState where
  | free
  | aligning
  | slewing
  | aligned
  | holdover
  | source
  deriving DecidableEq, Repr

/-- TB_DLYp and TB_ASYMp (R270). -/
structure TbPort where
  rtt    : BitVec 24 := 0
  lane   : BitVec 2 := 0
  oneway : BitVec 24 := 0
  asym   : BitVec 16 := 0
  deriving DecidableEq, Repr

/-- What one port knows of its markers (R259, R337): the number of the next one sent, numbers and instants of
the last two sent and received, the one that waits for its TIME frame, and the STATUS last confirmed. -/
structure MarkPort where
  next    : BitVec 8 := 0
  sent    : List (BitVec 8 × BitVec 48) := []
  rcvd    : List (BitVec 8 × BitVec 48) := []
  pending : Option MarkerMsg := none
  hops    : Nat := 7
  state   : Nat := 0
  deriving DecidableEq, Repr

/-- The timebase (R251 to R270): `aoRatio` in 1/1,024 tick, `offs` the last exchanges' offsets in 1/64 tick, newest
first, `phase` the count's fraction of a tick and `slew` the phase steps still to add (above zero) or to leave out,
both in 1/64 tick (R252, R261), `aoFrac` the fraction, in 1/1,024 tick, of a count that runs from AOCLK (R267),
`blkPhase` how much of a block period has passed, in 1/16 tick (R302). -/
structure Tb where
  count     : Tick := 0
  running   : Bool := false
  onAoclk   : Bool := false
  state     : TbState := .free
  uport     : Nat := 0
  hops      : Nat := 0
  pllLost   : Bool := false
  countMis  : Bool := false
  rate      : Bool := false
  offJump   : Bool := false
  hold      : Nat := 0
  holdFrom  : Tick := 0
  offset    : BitVec 32 := 0
  offs      : List Int := []
  slew      : Int := 0
  phase     : Nat := 0
  aoFrac    : Nat := 0
  blkPhase  : Nat := 0
  goodRun   : Nat := 0
  jumps     : Nat := 0
  aoRatio   : Nat := 160 * 1024
  aoWindow  : Option Nat := none
  ports     : SMap TbPort := []
  marks     : SMap MarkPort := []
  deriving DecidableEq, Repr

/-! ### Lanes and link ports -/

/-- LNK_LANE_ST.STATE (R330). -/
inductive LaneState where
  | disabled
  | detect
  | training
  | inService
  | out
  | retraining
  | idle
  | test
  | failed
  deriving DecidableEq, Repr

/-- Why a lane is out of service (R303, R316). -/
inductive OutReason where
  | lost
  | drift
  | test
  | settings
  deriving DecidableEq, Repr

/-- The settings of a lane (R327, R328). -/
structure LaneCfg where
  ctleInit : Nat := 0
  deemph   : Nat := 0
  swing    : Nat := 0
  loop     : Nat := 0
  rate     : Nat := 0
  injMode  : Nat := 0
  inv      : Bool := false
  poly     : Nat := 0
  chkEn    : Bool := false
  genEn    : Bool := false
  deriving DecidableEq, Repr

/-- A received block as the deskew sees it: data, ALIGN, or another control block, which it skips (R297, R298). -/
inductive RxItem where
  | data (b : BitVec 128)
  | align
  | ctl
  deriving DecidableEq, Repr

/-- A lane (R296 to R330): `held` that it stands out of service for the partner's test (R320), `testFrom` what it was
when its own test began (R321), `hdrs` whether the last 64 sync headers it received were valid, newest first (R306),
`txScr` and `rxScr` the scrambler and descrambler (R304), `rxAhead` the blocks that commands have brought ahead of the
block periods, `rxq` what waits for the deskew (R298), `gear` the blocks that wait in the gearbox, at most 3, `echo` the
bits of a far-end loopback that fill no word yet (R319), and `words` the lane words sent last (R302), `prbs` the last
bits of the PRBS generator, newest first (R322), `flips` how many of its next bits are inverted (R324), `phaseFrom` when
its phase began (R307). -/
structure Lane where
  state     : LaneState := .disabled
  phase     : Nat := 0
  phaseFrom : Tick := 0
  logical   : Nat := 0
  txInv     : Bool := false
  rxInv     : Bool := false
  cdrLock   : Bool := false
  blockLock : Bool := false
  dup       : Bool := false
  deferred  : Bool := false
  applyRes  : Nat := 0
  ctle      : BitVec 4 := 0
  ctleAnc   : BitVec 4 := 0
  bw        : BitVec 3 := 0
  bwAnc     : BitVec 3 := 0
  ph        : BitVec 6 := 0
  phAnc     : BitVec 6 := 0
  cfg       : LaneCfg := {}
  staged    : Option LaneCfg := none
  reason    : Option OutReason := none
  tries     : Nat := 0
  cal       : BitVec 32 := 0
  upSent    : Bool := false
  upRcvd    : Bool := false
  held      : Bool := false
  testFrom  : LaneState := .disabled
  hdrs      : List Bool := []
  txScr     : BitVec 31 := 0
  rxScr     : BitVec 31 := 0
  rxAhead   : Nat := 0
  rxq       : List RxItem := []
  gear      : List (BitVec 130) := []
  echo      : List Bool := []
  words     : List (BitVec 40) := []
  prbs      : List Bool := []
  flips     : Nat := 0
  deriving DecidableEq, Repr

/-- The counters and the PRBS checker of a lane (R323, R324, R329, R330): `chk` its register, newest bit first, `run` the
consecutive right predictions before SYNC, `wrong` which of the last 1,024 bits in SYNC were mismatches, newest first,
`ahead` the bits that commands have brought ahead of the block periods. -/
structure LaneCnt where
  syncErr  : Nat := 0
  losses   : Nat := 0
  drift    : Nat := 0
  retrains : Nat := 0
  sync     : Bool := false
  chk      : List Bool := []
  run      : Nat := 0
  wrong    : List Bool := []
  ahead    : Nat := 0
  errors   : Nat := 0
  bits     : Nat := 0
  bitsRead : Nat := 0
  injected : Nat := 0
  deriving DecidableEq, Repr

/-- LNK_PORT_ST.STATE (R348). -/
inductive PortState where
  | disabled
  | down
  | training
  | auth
  | up
  | quarantined
  deriving DecidableEq, Repr

/-- The session keys of a port (R344), in the direction this device sends and receives. -/
structure SessKeys where
  gmacTx  : BitVec 256
  gmacRx  : BitVec 256
  alarmTx : BitVec 256
  alarmRx : BitVec 256
  ivTx    : BitVec 32
  ivRx    : BitVec 32
  deriving DecidableEq, Repr

/-- The LANE control block sent last (R303): OP, logical lane, REASON, MASK. -/
structure LaneBlk where
  op     : Nat
  k      : Nat
  reason : Nat
  mask   : BitVec 4
  deriving DecidableEq, Repr

/-- What waits to go on the lanes of a port (R297, R303, R313): a frame, with whether one of its bits is inverted
(R367), the second block of a frame, a MARKER, the control blocks that go on every lane, the exit burst with the UI
still to send. -/
inductive TxItem where
  | frame (f : Frame) (bad : Bool)
  | half (b : BitVec 128)
  | marker (m : MarkerMsg)
  | align (mask : BitVec 4) (count : BitVec 32)
  | lane (b : LaneBlk)
  | eios
  | burst (n : Nat)
  deriving DecidableEq, Repr

/-- The lane layer of a port (R296, R297, R305, R312 to R315): `down` is the DOWN that waits for its DOWN_ACK, sent
`downs` times, `alignRx` the count of the last ALIGN received, `heard` the lanes on which ALIGN has come since an idle
exit began, `exitPer` the block periods since the last exit ALIGN (R313), `txq` what waits for the line, `lineMask` the
lanes that the present block period uses (R297), `rxHalf` the first block of a frame in reception and `rxFrames` the frames
put together since the last batch, oldest first (R297), `swap` a frame that goes after the next one (R367). -/
structure PortLanes where
  enabled  : Bool := false
  lanes    : Nat := 0
  txMask   : BitVec 4 := 0
  rxMask   : BitVec 4 := 0
  nextMask : BitVec 4 := 0
  alignCnt : BitVec 32 := 0
  down     : Option (Nat × OutReason) := none
  downs    : Nat := 0
  sent     : Option LaneBlk := none
  idleTx   : Bool := true
  idleRx   : Bool := false
  waking   : Bool := false
  alignRx  : BitVec 32 := 0
  heard    : BitVec 4 := 0
  exitPer  : Nat := 0
  txq      : List TxItem := []
  lineMask : BitVec 4 := 0
  rxHalf   : Option (BitVec 128) := none
  rxFrames : List (BitVec 256) := []
  swap     : Option Frame := none
  deriving DecidableEq, Repr

/-- The link layer of a port (R333 to R348, R363, R366 to R371). -/
structure LPort where
  state      : PortState := .disabled
  reason     : Nat := 0
  pdev       : Nat := 0
  pport      : Nat := 0
  pboot      : Nat := 0
  retry      : Nat := 0
  nbrDev     : Nat := 0
  nbrPort    : Nat := 0
  lanes      : PortLanes := {}
  seq        : BitVec 12 := 0
  expect     : BitVec 12 := 0
  replayBuf  : List Frame := []
  batch      : List Frame := []
  relayq     : List Frame := []
  nak        : Bool := false
  lastTag    : Option FrameBody := none
  stalls     : Nat := 0
  failRun    : Nat := 0
  txBatch    : BitVec 64 := 0
  rxBatch    : BitVec 64 := 0
  deriving DecidableEq, Repr

/-- Authentication, alarms, injection and counters of a port (R342 to R347, R363 to R371). -/
structure LAuth where
  step      : Nat := 0
  attempt   : Nat := 0
  hello     : Option HelloMsg := none
  ownHello  : List (BitVec 8) := []
  transcript : List (BitVec 8) := []
  serial    : BitVec 96 := 0
  certOk    : Bool := false
  keys      : Option SessKeys := none
  alarmTx   : BitVec 64 := 0
  alarmRx   : BitVec 64 := 0
  accepted  : List (BitVec 3 × BitVec 5 × BitVec 64) := []
  qRepeat   : List (Frame × Nat) := []
  wasUp     : Bool := false
  injRate   : Nat := 0
  injPer    : Bool := false
  injMode   : Nat := 0
  injOne    : Bool := false
  injCnt    : Nat := 0
  replays   : Nat := 0
  crcErr    : Nat := 0
  macFail   : Nat := 0
  suspect   : Nat := 0
  qdiscard  : Nat := 0
  pxDrop    : Nat := 0
  injected  : Nat := 0
  deriving DecidableEq, Repr

/-! ### Cascade -/

/-- A proxy held here for a source of another device (R353 to R361). -/
structure Proxy where
  live    : Bool := false
  gsrc    : Nat := 0
  level   : Bool := false
  isLevel : Bool := false
  closing : Bool := false
  handoff : Bool := false
  deriving DecidableEq, Repr

/-- The home's view of a FORWARDED entry (R354 to R361): the device, the proxy once OPENED, the group
and member of a hand-off, the firing that went with the OPEN or before its answer, a firing merged here, and
whether a CLOSE is on its way. -/
structure Fwd where
  dev     : Nat
  proxy   : Option Nat
  grp     : Option (Nat × BitVec 13)
  firing  : Option (BitVec 32)
  held    : Option (BitVec 32)
  closing : Bool
  deriving DecidableEq, Repr

/-- The E2E state with one other device (R341). -/
structure E2e where
  next : Nat := 0
  exp  : Nat := 0
  kept : List Frame := []
  held : List Frame := []
  deriving DecidableEq, Repr

/-- An availability received in a SUMMARY (R360). -/
structure Avail where
  rank  : Nat := 511
  awake : Bool := false
  tick  : Tick := 0
  deriving DecidableEq, Repr

/-- The cascade layer (R331, R341, R349 to R366, R370, R371). -/
structure Cas where
  role      : Nat := 0
  epoch     : Nat := 0
  hwdev     : Nat := 0
  members   : BitVec 8 := 0
  boots     : SMap Nat := []
  map       : BitVec 128 := 0
  mapKnown  : Bool := false
  excluded  : Bool := false
  serials   : SMap (BitVec 96) := []
  aligned   : BitVec 8 := 0
  pxUnits   : List Nat := []
  proxies   : SMap Proxy := []
  fwds      : SMap (Option Fwd) := []
  e2e       : SMap E2e := []
  alarms    : List (BitVec 3 × BitVec 5 × BitVec 64 × Tick) := []
  avail     : SMap Avail := []
  changed   : List Nat := []
  rotation  : Nat := 0
  noted     : SMap Nat := []
  injEn     : Bool := false
  injWrote  : Bool := false
  deriving DecidableEq, Repr

/-! ### Power -/

/-- What the power sequencer waits on VGOOD or time for (R373, R374, R391, R392): a raise before its margin
check, or after the one step its check asked for; a lower; VREQ on its way back; an ageing step whose loop goes
on, the pause before its next reading, or its last step; the lower to PL0 before DORMANT; the level held at entry to
DORMANT on its way back. -/
inductive SeqOp where
  | idle
  | raise (t : Nat)
  | raiseEnd (t : Nat)
  | lower (t : Nat)
  | settle
  | ageStep (l : Nat)
  | ageWait (l : Nat)
  | ageLast (l : Nat)
  | sleepLevel
  | wakeLevel (l : Nat)
  deriving DecidableEq, Repr

/-- What an ageing record holds of one level (R391 to R395); raises are times of ACTIVE life in readings; `dead`
says that PL0 has failed its retire test at its ceiling, `lowCeil` that an image has brought a ceiling below the code (R393).
-/
structure Lvl where
  code      : Nat := 0
  ceil      : Nat := 0
  atCeil    : Bool := false
  retired   : Bool := false
  pmargin   : Nat := 0
  smargin   : Nat := 0
  raise1    : Option Nat := none
  raise2    : Option Nat := none
  dead      : Bool := false
  lowCeil   : Bool := false
  deriving DecidableEq, Repr

/-- Performance levels and ageing (R372 to R375, R390 to R395). -/
structure Lev where
  cur      : Nat := 0
  tgt      : Nat := 0
  pend     : Option (Nat × Bool) := none
  lastres  : Nat := 0
  vreq     : Nat := 0x14
  floor    : Nat := 0
  op       : SeqOp := .idle
  vgood    : Bool := true
  lvls     : SMap Lvl := []
  agePm    : Nat := 0
  ageSm    : Nat := 0
  pworst   : BitVec 5 := 0
  sworst   : BitVec 3 := 0
  ageLevel : Nat := 0
  reads    : BitVec 32 := 0
  lvlChg   : Nat := 0
  ageHeld  : Option (Nat × Margins) := none
  deriving DecidableEq, Repr

/-- The eddy latch (R383 to R385). -/
structure Eddy where
  armed  : Bool := false
  tick   : BitVec 32 := 0
  count  : Nat := 0
  kind   : Nat := 0
  domain : Nat := 0
  deriving DecidableEq, Repr

/-- Domains, sleep requests, holds and wakes (R41 to R44, R376 to R389): `wakeQ` are the wakes that wait for the
sequencer (R374), `latched` the kinds and domains of the wake events of a commit in their order (R384), `lowered` that a
DORMANT commit has lowered the level, `wasLow` that this was so before the commit under way, `restore` that the level
held at entry is to come back (R383, R387). -/
structure Pwr where
  dom      : SMap Nat := []
  doze     : BitVec 28 := 0
  req      : BitVec 28 := 0
  ack      : BitVec 28 := 0
  retEn    : BitVec 28 := 0
  isoEn    : BitVec 28 := BitVec.allOnes 28
  deepRet  : BitVec 4 := 0
  owner    : BitVec 28 := 0
  deepest  : SMap Nat := []
  phase    : Nat := 0
  world    : Bool := false
  reqWorld : Bool := false
  result   : Nat := 0
  first    : Nat := 31
  named    : BitVec 28 := 0
  targets  : SMap Nat := []
  votes    : BitVec 28 := 0
  toStop   : List Nat := []
  stopped  : List Nat := []
  waking   : BitVec 28 := 0
  wakeQ    : BitVec 28 := 0
  latched  : List (Nat × Nat) := []
  failing  : BitVec 28 := 0
  hold     : BitVec 28 := 0
  eddy     : Eddy := {}
  entryLvl : Nat := 0
  entryCnt : Tick := 0
  wakeFail : Bool := false
  wfDom    : Nat := 0
  heldCnt  : Nat := 0
  rollbacks : Nat := 0
  wakes    : Nat := 0
  aoCount  : Option Bool := none
  lowered  : Bool := false
  wasLow   : Bool := false
  restore  : Bool := false
  asyncs   : List (Nat × Bool × Tick) := []
  stagedLo : Option (BitVec 32) := none
  deriving DecidableEq, Repr

/-! ### Safety, errors, trace, test port -/

/-- SAF_ERR_P and SAF_ERR_N by meaning (R46). -/
inductive Rails where
  | notRunning
  | healthy
  | error
  deriving DecidableEq, Repr

/-- The safety outputs, the error log and the steward (R396 to R402, R426 to R430). -/
structure Saf where
  sig       : BitVec 32 := 0
  fatalSig  : BitVec 32 := 0
  tmr       : Nat := 125
  rails     : Rails := .notRunning
  fatalOut  : Bool := false
  react     : SMap Nat := []
  log       : SMap (BitVec 64 × BitVec 64) := []
  head      : Nat := 0
  tail      : Nat := 0
  idx       : Nat := 0
  lost      : Nat := 0
  skipped   : Nat := 0
  clsIdx    : Nat := 0
  cls       : SMap Nat := []
  uqDrop    : Nat := 0
  parity    : Nat := 0
  stwHalted : Bool := false
  stwStop   : Bool := false
  lastWdt   : Option Tick := none
  steps     : Nat := 0
  deriving DecidableEq, Repr

/-- The instructions of the test access port (R409). -/
inductive TapInstr where
  | traceRd
  | cntRd
  | stwHalt
  | stwStep
  | aryRd
  | aryWr
  deriving DecidableEq, Repr

/-- The states of the IEEE 1149.1 controller (R52). -/
inductive TapCtl where
  | testLogicReset
  | runTestIdle
  | selectDr
  | captureDr
  | shiftDr
  | exit1Dr
  | pauseDr
  | exit2Dr
  | updateDr
  | selectIr
  | captureIr
  | shiftIr
  | exit1Ir
  | pauseIr
  | exit2Ir
  | updateIr
  deriving DecidableEq, Repr

/-- The pins that the boundary-scan register covers, by group, with their number: every pin of the boundary but REFCLK
and the lane pairs (R8, R13, R14, R26, R30, R38, R42, R45, R48, R50 to R53). -/
def boundaryPins : List (String × Nat) :=
  [("clocks and resets", 22), ("REG", 202), ("DB0", 142), ("DB1", 142), ("DB2", 142), ("DB3", 142), ("MEM", 655),
   ("DLV0 to DLV15", 2176), ("wired inputs", 998), ("power", 125), ("safety", 3), ("key", 77), ("fuse", 44), ("debug", 4),
   ("test", 5), ("straps", 6)]

/-- The test access port (R52, R409 to R411): its controller, its instruction register, none in Test-Logic-Reset,
DENIED, the data last shifted out, and the cells of the boundary-scan register (assumption log entry 90). -/
structure Tap where
  ctl    : TapCtl := .testLogicReset
  bsr    : BitVec 4885 := 0
  ir     : Option TapInstr := none
  denied : Bool := false
  out0   : BitVec 64 := 0
  out1   : BitVec 64 := 0
  deriving DecidableEq, Repr

/-! ### Keys -/

/-- A copy in the key store (R421); `ok`: its CRC-32 and the complement match. -/
structure KeyCopy where
  erased    : Bool := true
  ok        : Bool := false
  header    : BitVec 64 := 0
  key       : BitVec 512 := 0
  sealed    : BitVec 256 := 0
  tombstone : Bool := false
  gen       : Nat := 0
  commits   : Nat := 0
  deriving DecidableEq, Repr

/-- A live key slot (R415, R416, R424). -/
structure Slot where
  present     : Bool := false
  invalidated : Bool := false
  copyB       : Bool := false
  torn        : Bool := false
  use         : BitVec 4 := 0
  secureOnly  : Bool := false
  neverExport : Bool := false
  parent      : Nat := 0
  gen         : Nat := 0
  pgen        : Nat := 0
  klen        : Nat := 0
  key         : BitVec 512 := 0
  deriving DecidableEq, Repr

/-- A key store commit in progress (R422): the slot (16: the root record), the copy being written and
what it will hold. -/
structure KeyCommit where
  slot : Nat
  toB  : Bool
  copy : KeyCopy
  live : Option Slot
  deriving DecidableEq, Repr

/-- What waits at the key vault, for its domain or behind a commit (R48, R49): a LOAD, an INVALIDATE of a slot, an
INVALIDATE root, or the root record that an INVALIDATE root still has to commit. -/
inductive KeyMsg where
  | load (slot : Nat) (beats : List (BitVec 64))
  | invalidate (slot : Nat)
  | root
  | rootRecord
  deriving DecidableEq, Repr

/-- The key vault and the key store (R415 to R425); `waiting` are the messages in the FIFO, `offered` those that the key
manager holds while it is full (R57, R58); `resps` are the responses of the last event that made any, in their
order, true for DONE (R48). -/
structure Keys where
  slots    : SMap Slot := []
  copyA    : SMap KeyCopy := []
  copyB    : SMap KeyCopy := []
  rootInv  : BitVec 4 := 0
  root     : Nat := 0
  formed   : Bool := false
  commit   : Option KeyCommit := none
  waiting  : List KeyMsg := []
  offered  : List KeyMsg := []
  resps    : List Bool := []
  deriving DecidableEq, Repr

/-! ### Mailbox, banks, register port -/

/-- The steward mailbox (R451 to R453); the data area as 64-bit words. BUSY without OWNED is a command whose reply is
discarded; `unusable`: its key slot has stopped being USABLE meanwhile (R420). -/
structure Mbx where
  owned  : Bool := false
  owner  : Bool := false
  busy   : Bool := false
  status : Nat := 0
  cmd    : Nat := 0
  rlen   : Nat := 0
  data   : SMap (BitVec 64) := []
  unusable : Bool := false
  deriving DecidableEq, Repr

/-- A select bank (R446). -/
structure Bank where
  selSrc   : Nat := 0
  selTgt   : Nat := 0
  selSlc   : Nat := 0
  selLane  : Nat := 0
  refused  : Nat := 0
  ignored  : Nat := 0
  fireFlt  : Nat := 0
  stagedLo : Option (BitVec 32) := none
  stkIdx   : Nat := 0
  grpMidx  : Nat := 0
  errIdx   : Nat := 0
  tbHi     : Option (BitVec 32) := none
  logSel   : Nat := 0
  deriving DecidableEq, Repr

/-- A transaction of the memory port (R13, R26 to R28): its request, with ASIZE the beats less one; `rest` are the bytes
that its operation moves in further transactions of the same kind from the address behind it; `beats` the WDATA and
WSTRB of a write, WLAST on the last. -/
structure MemReq where
  write : Bool
  world : Bool
  pid   : BitVec 20
  addr  : BitVec 48
  size  : BitVec 3
  tag   : BitVec 8
  rest  : Nat
  beats : List (BitVec 256 × BitVec 32)
  deriving DecidableEq, Repr

/-- The memory port: the transactions that may still be under way, oldest first, at most 64 reads and 64 writes (R27,
assumption log entry 89); how many have been made; and the writes of completion logs without a response, oldest first:
their slice, none where its entry has been dropped meanwhile (R173, R287). -/
structure MemPort where
  reqs : List MemReq := []
  made : Nat := 0
  logs : List (Option Nat) := []
  deriving DecidableEq, Repr

/-- The register port and the banks (R13 to R19, R272, R446): `waiting` are the accepted accesses without a response,
at most 16, `offered` those that their sender holds until one of them ends, `resps` the responses that may still stand on
the response channel, oldest first (R15, assumption log entry 89). -/
structure RegPort where
  sec      : Bank := {}
  nor      : Bank := {}
  pages    : SMap Bank := []
  waiting  : List Acc := []
  offered  : List Acc := []
  resps    : List Resp := []
  smapIdx  : Nat := 0
  lookPid  : BitVec 20 := 0
  lookHit  : Bool := false
  lookIdx  : Nat := 0
  lookSlc  : Nat := 0
  deriving DecidableEq, Repr

/-- The state of the block. `free` indexes the free values of Config and is the model's own. -/
structure State where
  pending : List Instr := []
  free    : Nat := 0
  boot    : Boot := {}
  straps  : Straps := {}
  fatal   : Fatal := {}
  img     : Img := {}
  arr     : Arr := {}
  stripes : Stripes := {}
  upsets  : List Upset := []
  cfl     : Cfl := {}
  weir    : Weir := {}
  ctxs    : SMap Ctx := []
  grps    : SMap Grp := []
  ports   : SMap Port := []
  slcs    : SMap Slc := []
  slog    : List LogRec := []
  tb      : Tb := {}
  lanes   : SMap Lane := []
  lcnts   : SMap LaneCnt := []
  lports  : SMap LPort := []
  lauth   : SMap LAuth := []
  cas     : Cas := {}
  lev     : Lev := {}
  pwr     : Pwr := {}
  reg     : RegPort := {}
  mem     : MemPort := {}
  saf     : Saf := {}
  trace   : List (BitVec 64 × BitVec 64) := []
  tap     : Tap := {}
  keys    : Keys := {}
  mbx     : Mbx := {}
  deriving DecidableEq, Repr

/-- The nominal VREQ code of a level (R372). -/
def nominalCode (l : Nat) : Nat :=
  match l with
  | 0 => 0x14
  | 1 => 0x24
  | 2 => 0x34
  | _ => 0x46

/-- The levels at always-on power-on: every code nominal (R391, R395). -/
def Lev.reset : Lev :=
  { lvls := [(0, { code := nominalCode 0 }), (1, { code := nominalCode 1 }),
             (2, { code := nominalCode 2 }), (3, { code := nominalCode 3 })] }

/-- The block at always-on power-on, CRST_N low. -/
def State.reset : State := { lev := Lev.reset }

end Sys2Proof.Machine
end

