-- ==== Sys2Proof/Machine/Operands.lean ====
section
/-!
DEFINITION. Decoders of every operand and record the block reads: image records (R85 to R99), SSA and PLA
words (R144, R146), doorbell data (R122 to R124), save image fields (R294).
-/

namespace Sys2Proof.Machine

/-- Record `i` of a section; a record beyond the list's end is zero. -/
def recAt {n : Nat} (l : List (BitVec n)) (i : Nat) : BitVec n := l.getD i 0

/-! ### Bytes (R79, R82) -/

/-- A word of `n` bytes, little-endian. -/
def bytesLE {w : Nat} (n : Nat) (v : BitVec w) : List (BitVec 8) :=
  (List.range n).map fun i => BitVec.ofNat 8 (v.toNat >>> (8 * i))

/-- A number of `n` bytes, little-endian. -/
def natLE (n v : Nat) : List (BitVec 8) := (List.range n).map fun i => BitVec.ofNat 8 (v >>> (8 * i))

/-- A word of `n` bytes, big-endian. -/
def bytesBE {w : Nat} (n : Nat) (v : BitVec w) : List (BitVec 8) := (bytesLE n v).reverse

/-- Exactly `n` records: records beyond the list's end are zero. -/
def padTo {w : Nat} (n : Nat) (l : List (BitVec w)) : List (BitVec w) :=
  l.take n ++ List.replicate (n - l.length) 0

/-- Records of `size` bytes as bytes, `n` of them. -/
def recsLE {w : Nat} (size n : Nat) (l : List (BitVec w)) : List (BitVec 8) := (padTo n l).flatMap (bytesLE size)

/-- One bit of the reflected CRC with polynomial 0x04C1_1DB7 (R82, R335). -/
def crcBit (c : BitVec 32) : BitVec 32 := if c.getLsbD 0 then (c >>> 1) ^^^ 0xEDB88320 else c >>> 1

/-- One byte of it. -/
def crcByte (c : BitVec 32) (b : BitVec 8) : BitVec 32 := Nat.repeat crcBit 8 (c ^^^ b.setWidth 32)

/-- CRC-32 of a byte string: initial and final value 0xFFFF_FFFF (R82). -/
def crc32 (l : List (BitVec 8)) : BitVec 32 := l.foldl crcByte 0xFFFFFFFF ^^^ 0xFFFFFFFF

/-! ### Sources (R114, R86) -/

/-- First message source. -/
def msgBase : Nat := 1024

/-- Number of message units. -/
def unitCount : Nat := 4094

/-- Sources 0 to 15 (R114). -/
def isSov (n : Nat) : Bool := n < 16

/-- Ordinary wired lines, sources 16 to 999. -/
def isWire (n : Nat) : Bool := 16 ≤ n && n < 1000

/-- Self-sources 1,000 to 1,023. -/
def isSelf (n : Nat) : Bool := 1000 ≤ n && n < 1024

/-- Message sources. -/
def isMsg (n : Nat) : Bool := 1024 ≤ n

/-- Sources with a locked sources record (R89). -/
def isLocked (n : Nat) : Bool := isSov n || isSelf n

/-- Unit of a message source (R86). -/
def unitOf (n : Nat) : Nat := (n - 1024) / 512

/-- First source of a unit. -/
def unitFirst (u : Nat) : Nat := 1024 + 512 * u

/-! ### SSA and PLA words -/

/-- STATE code (R145). -/
def SState.code : SState → Nat
  | .idle => 0 | .pending => 1 | .presented => 2 | .active => 3
  | .activePending => 4 | .completing => 5 | .forwarded => 6 | .reserved => 7

/-- State of a STATE code. -/
def SState.ofCode (n : Nat) : SState :=
  match n with
  | 0 => .idle | 1 => .pending | 2 => .presented | 3 => .active
  | 4 => .activePending | 5 => .completing | 6 => .forwarded | _ => .reserved

/-- The 64 data bits of an SSA entry (R144). -/
def Entry.toWord (e : Entry) : BitVec 64 :=
  pack [(61, 3, e.state.code), (60, 1, b2n e.en), (59, 1, b2n e.trig), (58, 1, b2n e.world),
        (57, 1, b2n e.sov), (49, 8, e.prio.toNat), (36, 13, e.route.toNat), (35, 1, b2n e.rmode),
        (19, 16, e.vec.toNat), (7, 12, e.slice.toNat), (0, 7, e.dlb.toNat)]

/-- The entry of 64 data bits. -/
def Entry.ofWord (w : BitVec 64) : Entry :=
  { state := SState.ofCode (fld w 61 3), en := bit w 60, trig := bit w 59, world := bit w 58,
    sov := bit w 57, prio := w.extractLsb' 49 8, route := w.extractLsb' 36 13, rmode := bit w 35,
    vec := w.extractLsb' 19 16, slice := w.extractLsb' 7 12, dlb := w.extractLsb' 0 7 }

/-- The 56 data bits of a PLA entry (R146). -/
def Pla.toWord (p : Pla) : BitVec 64 :=
  pack [(55, 1, b2n p.linked), (54, 1, b2n p.promoted), (53, 1, b2n p.missed),
        (21, 32, p.stamp.toNat), (0, 21, p.next.toNat)]

/-- The PLA entry of 56 data bits. -/
def Pla.ofWord (w : BitVec 64) : Pla :=
  { linked := bit w 55, promoted := bit w 54, missed := bit w 53,
    stamp := w.extractLsb' 21 32, next := w.extractLsb' 0 21 }

/-- Deadline budget in ticks; 0 is none (R185). -/
def budgetTicks (dlb : BitVec 7) : Nat := 4000 * ((fld dlb 0 4) * 2 ^ (fld dlb 4 3))

/-- Device of a fixed route or member. -/
def routeDev (r : BitVec 13) : Nat := fld r 10 3

/-- Context of a fixed route or member. -/
def routeCtx (r : BitVec 13) : Nat := fld r 0 10

/-- Group of a group route. -/
def routeGrp (r : BitVec 13) : Nat := fld r 0 9

/-- A member or fixed route naming a device and context. -/
def mkRoute (dev ctx : Nat) : BitVec 13 := BitVec.ofNat 13 ((dev % 8) * 1024 + ctx % 1024)

/-- World of a context (R202). -/
def ctxWorld (c : Nat) : Bool := c % 2 == 1

/-- Cluster, and so delivery port, of a context (R202). -/
def ctxPort (c : Nat) : Nat := c / 64

/-- Hart of a context within its cluster. -/
def ctxHart (c : Nat) : Nat := (c % 64) / 2

/-! ### Boot parameters (R85) -/

/-- BOOT_PL. -/
def bootPl (b : ImageBody) : Nat := fld b.boot 0 8

/-- PID of the steward's work on MEM_ (R28). -/
def bootStwPid (b : ImageBody) : BitVec 20 := b.boot.extractLsb' 32 20

/-- Vector stride in bytes. The model's choice: a STRIDE code above 3 is used as it stands (DESIGN CHOICE, assumption
log entry 60). -/
def bootStride (b : ImageBody) : Nat := 16 * 2 ^ (fld b.boot 8 8)

/-- Default presentation timeout. -/
def bootPtmo (b : ImageBody) : Nat := fld b.boot 16 16

/-- VREQ ceiling code of level `l`. -/
def bootVceil (b : ImageBody) (l : Nat) : Nat := fld b.boot (64 + 8 * l) 8

/-! ### Source pools and presets (R86, R87) -/

def poolSlice (r : BitVec 64) : Nat := fld r 0 12
def poolFirst (r : BitVec 64) : Nat := fld r 12 12
def poolCount (r : BitVec 64) : Nat := fld r 24 12

/-- The pools record whose extent holds a unit. -/
def poolOfUnit (b : ImageBody) (u : Nat) : Option (BitVec 64) :=
  b.pools.find? fun r => decide (poolFirst r ≤ u) && decide (u < poolFirst r + poolCount r)

/-- The pools record of a slice. The model's choice: of two extents for one slice the first is the slice's (DESIGN
CHOICE, assumption log entry 62). -/
def poolOfSlice (b : ImageBody) (sl : Nat) : Option (BitVec 64) :=
  b.pools.find? fun r => poolSlice r == sl && decide (0 < poolCount r)

def presetUnit (r : BitVec 128) : Nat := fld r 0 12

/-- The preset record of a unit: of several the first (DESIGN CHOICE, assumption log entry 95). -/
def presetOf (b : ImageBody) (u : Nat) : Option (BitVec 128) :=
  b.presets.find? fun r => presetUnit r == u

/-- What a clear of unit `u` writes, for an owner slice of a world (R87). -/
def unitBaseOf (b : ImageBody) (u : Nat) (slice : Nat) (world : Bool) : UnitBase :=
  match presetOf b u with
  | some r =>
    { preset := true, prio := r.extractLsb' 12 8, route := r.extractLsb' 20 13, rmode := bit r 33,
      vecBase := r.extractLsb' 34 16, dlb := r.extractLsb' 50 7,
      slice := BitVec.ofNat 12 slice, world := world }
  | none => { slice := BitVec.ofNat 12 slice, world := world }

/-! ### Wired lines, locked sources, contexts (R88 to R90) -/

/-- The wired lines record of source `n`, 16 to 999. -/
def wiredRec (b : ImageBody) (n : Nat) : BitVec 32 := recAt b.wired (n - 16)

def wiredInUse (r : BitVec 32) : Bool := bit r 0
def wiredLow (r : BitVec 32) : Bool := bit r 1
def wiredTrig (r : BitVec 32) : Bool := bit r 2
def wiredWorld (r : BitVec 32) : Bool := bit r 3
def wiredSlice (r : BitVec 32) : Nat := fld r 4 12

/-- The locked sources record of a source. -/
def lockedRec (b : ImageBody) (n : Nat) : Option (BitVec 64) :=
  b.locked.find? fun r => fld r 0 21 == n

def lockedRoute (r : BitVec 64) : BitVec 13 := r.extractLsb' 21 13
def lockedRmode (r : BitVec 64) : Bool := bit r 34
def lockedVec (r : BitVec 64) : BitVec 16 := r.extractLsb' 35 16
def lockedPrio (r : BitVec 64) : BitVec 8 := r.extractLsb' 51 8
def lockedWorld (r : BitVec 64) : Bool := bit r 59

def ctxRecInUse (b : ImageBody) (c : Nat) : Bool := bit (recAt b.contexts c) 0
def ctxRecSlice (b : ImageBody) (c : Nat) : Nat := fld (recAt b.contexts c) 1 12

/-! ### Slices and the slice map (R91, R92, R271) -/

/-- The slices record of a slice. -/
def sliceRec (b : ImageBody) (sl : Nat) : Option (BitVec 256) :=
  b.slices.find? fun r => fld r 0 12 == sl

/-- The share values of a slices record. The model's choice: weights above 255 are taken modulo 256, a quota above 8,192
is held at 8,192 (DESIGN CHOICE, assumption log entry 64). -/
def sliceShare (r : BitVec 256) : Share :=
  { aweight := fld r 32 16 % 256, quota := min (fld r 48 16) 8192, dweight := fld r 64 16 % 256 }

/-- The image's settings of a slice. The model's choice: MODE other than 0 or 1 is native (DESIGN CHOICE, assumption log
entry 64). -/
def sliceInfo (b : ImageBody) (sl : Nat) (r : BitVec 256) : SlcInfo :=
  { mediated := fld r 16 8 == 1, world := bit r 24, windowed := bit r 25, strayRaise := bit r 26,
    profile := fld r 80 8 % 16, ceiling := fld r 88 8, memPid := r.extractLsb' 96 20,
    logLen := fld r 128 32,
    extFirst := (poolOfSlice b sl).elim 0 poolFirst,
    extUnits := (poolOfSlice b sl).elim 0 poolCount }

def smapPid (r : BitVec 64) : Nat := fld r 0 20
def smapSlice (r : BitVec 64) : Nat := fld r 20 12
def smapValid (r : BitVec 64) : Bool := bit r 32

/-- Home position of a PID in the slice map (R271). -/
def smapHome (pid : BitVec 20) : Nat :=
  ((pid.extractLsb' 0 12) ^^^ (BitVec.ofNat 12 (fld pid 12 8 * 16))).toNat

/-- The positions at which a PID is found (R271). -/
def smapHits (b : ImageBody) (pid : BitVec 20) : List Nat :=
  ((List.range 8).map fun i => (smapHome pid + i) % 4096).filter fun h =>
    smapValid (recAt b.smap h) && smapPid (recAt b.smap h) == pid.toNat

/-- The position of a PID when exactly one of its eight positions holds it (R271). -/
def smapFind (b : ImageBody) (pid : BitVec 20) : Option Nat :=
  match smapHits b pid with
  | [h] => some h
  | _ => none

/-- The slice a PID maps to. -/
def pidSlice (b : ImageBody) (pid : BitVec 20) : Option Nat :=
  (smapFind b pid).map fun h => smapSlice (recAt b.smap h)

/-! ### Groups, cascade, lanes (R93 to R95) -/

def grpNum (r : BitVec 1088) : Nat := fld r 0 9
def grpWorld (r : BitVec 1088) : Bool := bit r 9
def grpSlice (r : BitVec 1088) : Nat := fld r 10 12
def grpLimit (r : BitVec 1088) : Nat := fld r 22 7
def grpInitial (r : BitVec 1088) : Nat := fld r 31 7

/-- The initial members in record order. -/
def grpMembers (r : BitVec 1088) : List (BitVec 13) :=
  (List.range (min (grpInitial r) 64)).map fun i => r.extractLsb' (64 + 16 * i) 13

/-- The groups record of a group. -/
def grpRec (b : ImageBody) (g : Nat) : Option (BitVec 1088) := b.groups.find? fun r => grpNum r == g

/-- The group of a groups record (R206, R214). -/
def grpOfRec (r : BitVec 1088) : Grp :=
  { defined := true, world := grpWorld r, slice := grpSlice r, limit := grpLimit r,
    preferAwake := bit r 29, cascadeWide := bit r 30, members := grpMembers r }

/-- Cascade role of the image (R94). -/
def casRole (b : ImageBody) : Nat := fld b.cascade 0 8
def casDevCount (b : ImageBody) : Nat := fld b.cascade 16 8
def casExpDev (b : ImageBody) : Nat := fld b.cascade 24 8
def casHead (b : ImageBody) : Nat := fld b.cascade 32 8
def casStandby (b : ImageBody) : Nat := fld b.cascade 40 8

/-- Lane count of port `p`, 0 to 4 (R94). The model's choice: a count above 4 stands as it is, so that all four lanes
belong to the port (DESIGN CHOICE, assumption log entry 65). -/
def casLanes (b : ImageBody) (p : Nat) : Nat := fld b.cascade (64 + 32 * p) 4
def casNbrDev (b : ImageBody) (p : Nat) : Nat := fld b.cascade (64 + 32 * p + 4) 3
def casNbrPort (b : ImageBody) (p : Nat) : Nat := fld b.cascade (64 + 32 * p + 7) 2

/-- Fingerprint of the manufacturing authority (R94, R343). -/
def casFingerprint (b : ImageBody) : BitVec 384 := b.cascade.extractLsb' 192 384

/-- Whether a role agrees with the HW_ROLE strap (R94). -/
def roleAgrees (role hw : Nat) : Bool :=
  match role with
  | 0 => hw == 0 | 1 => hw == 0 | 2 => hw == 1 | 3 => hw == 2 | _ => false

def laneLogical (r : BitVec 64) : Nat := fld r 0 2
def laneRxInv (r : BitVec 64) : Bool := bit r 2
def laneTxInv (r : BitVec 64) : Bool := bit r 3
def laneSwing (r : BitVec 64) : Nat := fld r 4 4
def laneDeemph (r : BitVec 64) : Nat := fld r 8 4
def laneCtle (r : BitVec 64) : Nat := fld r 12 4

/-! ### Profiles, reactions, domains, fallback, compatibility (R96 to R99) -/

def reactClass (r : BitVec 16) : Nat := fld r 0 8
def reactCode (r : BitVec 16) : Nat := fld r 8 8

def domWorld (r : BitVec 32) : Bool := bit r 0
/-- Deepest state of a domain (R97). The model's choice: the reserved code 3 allows DORMANT (DESIGN CHOICE, assumption
log entry 67). -/
def domDeepest (r : BitVec 32) : Nat := fld r 1 2

def fbRoute (r : BitVec 64) : BitVec 13 := r.extractLsb' 0 13
def fbVec (r : BitVec 64) : BitVec 16 := r.extractLsb' 13 16
def fbPrio (r : BitVec 64) : BitVec 8 := r.extractLsb' 29 8
def fbValid (r : BitVec 64) : Bool := bit r 37

def compatKind (r : BitVec 64) : Nat := fld r 0 8
def compatMajor (r : BitVec 64) : Nat := fld r 8 8
def compatLow (r : BitVec 64) : Nat := fld r 16 8
def compatHigh (r : BitVec 64) : Nat := fld r 24 8
def compatVer (r : BitVec 64) : BitVec 32 := r.extractLsb' 32 32

/-! ### Device constants -/

/-- GLB_HWVER (R5): major 2, minor 0. -/
def hwver : Nat := 0x0200
def hwMajor : Nat := 2
def hwMinor : Nat := 0

/-- Minimum reaction of a failure class (R396, R398). -/
def minReaction (cls : Nat) : Nat :=
  if cls == 0x02 || cls == 0x07 || cls == 0x12 then 3
  else if cls == 0x13 then 2
  else if cls == 0x04 then 0
  else 1

/-- Whether a code names a failure class of R396. -/
def isFailClass (cls : Nat) : Bool := 1 ≤ cls && cls ≤ 0x16

/-! ### Doorbell data (R122 to R124) -/

/-- Page number of a doorbell address (R121). -/
def dbPage (a : BitVec 24) : Nat := fld a 12 12

/-- ES-1 half of a mediated page (R124). -/
def dbEs1 (a : BitVec 24) : Bool := bit a 11

/-- SOURCE or FIRST of a doorbell write. -/
def dbFirst (d : BitVec 64) (es1 : Bool) : Nat := if es1 then fld d 0 16 else fld d 0 21

/-- COUNT of a RANGE. -/
def dbCount (d : BitVec 64) : Nat := fld d 32 11

end Sys2Proof.Machine
end

