-- ==== Sys2Proof/Machine/Ops.lean ====
section
/-!
DEFINITION. Named operations on the state: one change function per field, accessors of the sparse arrays,
time and stamps, SSA and PLA entries, the event trace.
-/

namespace Sys2Proof.Machine

/-! ### Change functions -/

/-- Change field `free`. -/
def State.onFree (s : State) (f : Nat → Nat) : State := { s with free := f s.free }

/-- Change field `boot`. -/
def State.onBoot (s : State) (f : Boot → Boot) : State := { s with boot := f s.boot }

/-- Change field `straps`. -/
def State.onStraps (s : State) (f : Straps → Straps) : State := { s with straps := f s.straps }

/-- Change field `fatal`. -/
def State.onFatal (s : State) (f : Fatal → Fatal) : State := { s with fatal := f s.fatal }

/-- Change field `img`. -/
def State.onImg (s : State) (f : Img → Img) : State := { s with img := f s.img }

/-- Change field `arr`. -/
def State.onArr (s : State) (f : Arr → Arr) : State := { s with arr := f s.arr }

/-- Change field `stripes`. -/
def State.onStripes (s : State) (f : Stripes → Stripes) : State := { s with stripes := f s.stripes }

/-- Change field `cfl`. -/
def State.onCfl (s : State) (f : Cfl → Cfl) : State := { s with cfl := f s.cfl }

/-- Change field `weir`. -/
def State.onWeir (s : State) (f : Weir → Weir) : State := { s with weir := f s.weir }

/-- Change field `ctxs`. -/
def State.onCtxs (s : State) (f : SMap Ctx → SMap Ctx) : State := { s with ctxs := f s.ctxs }

/-- Change field `grps`. -/
def State.onGrps (s : State) (f : SMap Grp → SMap Grp) : State := { s with grps := f s.grps }

/-- Change field `ports`. -/
def State.onPorts (s : State) (f : SMap Port → SMap Port) : State := { s with ports := f s.ports }

/-- Change field `slcs`. -/
def State.onSlcs (s : State) (f : SMap Slc → SMap Slc) : State := { s with slcs := f s.slcs }

/-- Change field `slog`. -/
def State.onSlog (s : State) (f : List LogRec → List LogRec) : State := { s with slog := f s.slog }

/-- Change field `tb`. -/
def State.onTb (s : State) (f : Tb → Tb) : State := { s with tb := f s.tb }

/-- Change field `lanes`. -/
def State.onLanes (s : State) (f : SMap Lane → SMap Lane) : State := { s with lanes := f s.lanes }

/-- Change field `lcnts`. -/
def State.onLcnts (s : State) (f : SMap LaneCnt → SMap LaneCnt) : State := { s with lcnts := f s.lcnts }

/-- Change field `lports`. -/
def State.onLports (s : State) (f : SMap LPort → SMap LPort) : State := { s with lports := f s.lports }

/-- Change field `lauth`. -/
def State.onLauth (s : State) (f : SMap LAuth → SMap LAuth) : State := { s with lauth := f s.lauth }

/-- Change field `cas`. -/
def State.onCas (s : State) (f : Cas → Cas) : State := { s with cas := f s.cas }

/-- Change field `lev`. -/
def State.onLev (s : State) (f : Lev → Lev) : State := { s with lev := f s.lev }

/-- Change field `pwr`. -/
def State.onPwr (s : State) (f : Pwr → Pwr) : State := { s with pwr := f s.pwr }

/-- Change field `reg`. -/
def State.onReg (s : State) (f : RegPort → RegPort) : State := { s with reg := f s.reg }

/-- Change field `mem`. -/
def State.onMem (s : State) (f : MemPort → MemPort) : State := { s with mem := f s.mem }

/-- Change field `saf`. -/
def State.onSaf (s : State) (f : Saf → Saf) : State := { s with saf := f s.saf }

/-- Change field `trace`. -/
def State.onTrace (s : State) (f : List (BitVec 64 × BitVec 64) → List (BitVec 64 × BitVec 64)) : State :=
  { s with trace := f s.trace }

/-- Change field `tap`. -/
def State.onTap (s : State) (f : Tap → Tap) : State := { s with tap := f s.tap }

/-- Change field `keys`. -/
def State.onKeys (s : State) (f : Keys → Keys) : State := { s with keys := f s.keys }

/-- Change field `mbx`. -/
def State.onMbx (s : State) (f : Mbx → Mbx) : State := { s with mbx := f s.mbx }


/-! ### Sparse arrays -/

def State.ctx (s : State) (c : Nat) : Ctx := SMap.get {} s.ctxs c
def State.grp (s : State) (g : Nat) : Grp := SMap.get {} s.grps g
def State.port (s : State) (n : Nat) : Port := SMap.get {} s.ports n
def State.slc (s : State) (i : Nat) : Slc := SMap.get {} s.slcs i
def State.lane (s : State) (l : Nat) : Lane := SMap.get {} s.lanes l
def State.lcnt (s : State) (l : Nat) : LaneCnt := SMap.get {} s.lcnts l
def State.lport (s : State) (p : Nat) : LPort := SMap.get {} s.lports p
def State.lauthOf (s : State) (p : Nat) : LAuth := SMap.get {} s.lauth p
def State.latch (s : State) (n : Nat) : Latch := SMap.get {} s.cfl.latches n
def State.line (s : State) (n : Nat) : Line := SMap.get {} s.cfl.lines n

def State.onCtx (s : State) (c : Nat) (f : Ctx → Ctx) : State := s.onCtxs fun m => SMap.upd {} m c f
def State.onGrp (s : State) (g : Nat) (f : Grp → Grp) : State := s.onGrps fun m => SMap.upd {} m g f
def State.onPort (s : State) (n : Nat) (f : Port → Port) : State := s.onPorts fun m => SMap.upd {} m n f
def State.onSlc (s : State) (i : Nat) (f : Slc → Slc) : State := s.onSlcs fun m => SMap.upd {} m i f
def State.onLane (s : State) (l : Nat) (f : Lane → Lane) : State := s.onLanes fun m => SMap.upd {} m l f
def State.onLcnt (s : State) (l : Nat) (f : LaneCnt → LaneCnt) : State :=
  s.onLcnts fun m => SMap.upd {} m l f
def State.onLport (s : State) (p : Nat) (f : LPort → LPort) : State :=
  s.onLports fun m => SMap.upd {} m p f
def State.onLauthOf (s : State) (p : Nat) (f : LAuth → LAuth) : State :=
  s.onLauth fun m => SMap.upd {} m p f
def State.onLatch (s : State) (n : Nat) (f : Latch → Latch) : State :=
  s.onCfl fun c => { c with latches := SMap.upd {} c.latches n f }
def State.onLine (s : State) (n : Nat) (f : Line → Line) : State :=
  s.onCfl fun c => { c with lines := SMap.upd {} c.lines n f }

/-- Change the counters of a slice. -/
def State.onSlcCnt (s : State) (i : Nat) (f : SlcCnt → SlcCnt) : State :=
  s.onSlc i fun x => { x with cnt := f x.cnt }

/-- Change the delivery counters of a context. -/
def State.onDlvCnt (s : State) (c : Nat) (f : DlvCnt → DlvCnt) : State :=
  s.onCtx c fun x => { x with cnt := f x.cnt }

/-! ### Time -/

/-- The count (R251). -/
def State.now (s : State) : Tick := s.tb.count

/-- HCLK period in ticks, 1.0 GHz to 250 MHz (R8). -/
def hclkTicks (i : Nat) : Nat := 4 + Config.hclkRaw i % 13

/-- Three SCLK cycles in whole ticks at a level (R372). -/
def sclk3Ticks (pl : Nat) : Nat :=
  match pl with
  | 0 => 30
  | 1 => 15
  | 2 => 10
  | _ => 7

/-- The count received through a crossing (R57, R255): between 0 and the bound late, bits [1:0] zero. The
lag is a free value (assumption log entry 1). -/
def crossed (count : Tick) (bound lagRaw : Nat) : Tick :=
  BitVec.ofNat 64 ((count.toNat - lagRaw % (bound - 2)) / 4 * 4)

/-- The clocked stamp of an event in the HCLK domain, by the count at its request transfer edge. -/
def State.stampHclkAt (s : State) (count : Tick) : Tick :=
  crossed count (8 + 3 * hclkTicks s.free) (Config.stampLag s.free)

/-- The clocked stamp of an event in the HCLK domain that happens now. -/
def State.stampHclk (s : State) : Tick := s.stampHclkAt s.now

/-- The clocked stamp of an event in the SCLK domain. -/
def State.stampSclk (s : State) : Tick :=
  crossed s.now (8 + sclk3Ticks s.lev.cur) (Config.stampLag s.free)

/-- A free value has been drawn. -/
def State.drawn (s : State) : State := { s with free := s.free + 1 }

/-- The full tick of a 32-bit stamp that lies no more than 2^32 ticks back (R147). -/
def State.fullStamp (s : State) (st : BitVec 32) : Nat :=
  s.now.toNat - stampDiff (s.now.extractLsb' 0 32) st

/-- Age of a stamp in ticks, modulo 2^32 (R188). -/
def State.age (s : State) (st : BitVec 32) : Nat := stampDiff (s.now.extractLsb' 0 32) st

/-- Low 32 bits of a tick. -/
def lo32 (t : BitVec 64) : BitVec 32 := t.extractLsb' 0 32

/-! ### The line of a port -/

/-- A control block goes out at the next frame boundary: before the frames that wait (R297, R314). -/
def PortLanes.control (x : PortLanes) (i : TxItem) : PortLanes :=
  let early : TxItem → Bool
    | .frame .. => false
    | .marker _ => false
    | _ => true
  { x with txq := x.txq.takeWhile early ++ [i] ++ x.txq.dropWhile early }

/-! ### The memory port (R13, R26 to R28) -/

/-- Bytes that one transaction moves of `len` from an address: at most 8 beats of 32 bytes, within 4 KiB (R13, R27). -/
def txLen (addr : BitVec 48) (len : Nat) : Nat :=
  min len (min (256 - addr.toNat % 32) (4096 - addr.toNat % 4096))

/-- Beats of `len` bytes from an address. -/
def txBeats (addr : BitVec 48) (len : Nat) : Nat := (addr.toNat % 32 + len + 31) / 32

/-- The bytes of a beat from byte `off` on: WDATA and WSTRB (R26). -/
def memBeat (off : Nat) (bs : List (BitVec 8)) : BitVec 256 × BitVec 32 :=
  (BitVec.ofNat 256 ((bs.foldr (fun b n => b.toNat + 256 * n) 0) * 256 ^ off),
   BitVec.ofNat 32 ((2 ^ bs.length - 1) * 2 ^ off))

/-- The beats of a write of at most 256 bytes from byte `off` of the first (R26). -/
def memBeats : Nat → Nat → List (BitVec 8) → List (BitVec 256 × BitVec 32)
  | 0, _, _ => []
  | k + 1, off, bs =>
    if bs.isEmpty then [] else memBeat off (bs.take (32 - off)) :: memBeats k 0 (bs.drop (32 - off))

/-- A transaction joins those under way; at most 64 of its direction are, so the oldest of more has ended (R27). -/
def memKeep (l : List MemReq) (q : MemReq) : List MemReq :=
  (if 64 ≤ l.countP fun x => x.write == q.write then l.eraseP fun x => x.write == q.write else l) ++ [q]

/-- The block begins an operation of `len` bytes on MEM_: its first transaction, on whole beats (R27), with the world and
PID of the work it serves; `data` is what a write moves. A tag is a free value (assumption log entry 1). -/
def State.memRequest (s : State) (write world : Bool) (pid : BitVec 20) (addr : BitVec 48) (len : Nat)
    (data : List (BitVec 8)) : State :=
  let k := txLen addr len
  s.onMem fun m =>
    { m with
      made := m.made + 1
      reqs := memKeep m.reqs
        { write := write, world := world, pid := pid, addr := addr &&& 0xFFFFFFFFFFE0,
          size := BitVec.ofNat 3 (txBeats addr k - 1), tag := Config.memTag m.made, rest := len - k,
          beats := memBeats 9 (addr.toNat % 32) (data.take k) } }

/-- A request of the steward's work: image fetch, firmware, fatal dump (R28, R85). Before a structure image is held its
PID is 0: the model's choice (DESIGN CHOICE, assumption log entry 91). -/
def State.stwRequest (s : State) (write : Bool) (addr : BitVec 48) (len : Nat) (data : List (BitVec 8)) : State :=
  s.memRequest write true (bootStwPid s.img.active) addr len data

/-- A request of a slice's work: save, restore, completion log ring (R28, R91). -/
def State.sliceRequest (s : State) (i : Nat) (write : Bool) (addr : BitVec 48) (len : Nat) (data : List (BitVec 8)) :
    State :=
  s.memRequest write (s.slc i).info.world (s.slc i).info.memPid addr len data

/-! ### Response channels (R15, R25) -/

/-- A response joins those of its port. At most `depth` requests are outstanding, so the oldest of more responses has
transferred; when one transfers no command says (DESIGN CHOICE, assumption log entry 89). -/
def keepResp (depth : Nat) (l : List Resp) (r : Resp) : List Resp := (l ++ [r]).drop (l.length + 1 - depth)

/-! ### Downstream messages (R30) -/

/-- Number of ones of a word of `w` bits, modulo 2. -/
def parityOf (v : Nat) : Nat → Bool
  | 0 => false
  | w + 1 => xor (v.testBit w) (parityOf v w)

/-- A downstream message with DLVn_D_PAR: even parity over OP, CTX, SOV, PRIO, VADDR and TAG. -/
def DMsg.of (revoke : Bool) (ctx : Nat) (sov : Bool) (prio : Nat) (vaddr : BitVec 48) (tag : Nat) : DMsg :=
  let op : Nat := if revoke then 2 else 1
  let bits := op + (ctx % 64) * 2 ^ 2 + b2n sov * 2 ^ 8 + (prio % 256) * 2 ^ 9 + vaddr.toNat * 2 ^ 17 +
    (tag % 4096) * 2 ^ 65
  { revoke := revoke, ctx := ctx, sov := sov, prio := prio, vaddr := vaddr, tag := tag, par := parityOf bits 77 }

/-! ### SSA and PLA entries -/

/-- The entry of a message source after its unit's last clear (R87); zero elsewhere. -/
def baseEntry (a : Arr) (n : Nat) : Entry :=
  if isMsg n then
    let u := SMap.get {} a.base (unitOf n)
    { prio := u.prio, route := u.route, rmode := u.rmode,
      vec := if u.preset then u.vecBase + BitVec.ofNat 16 ((n - 1024) % 512) else 0, slice := u.slice, dlb := u.dlb,
      world := u.world }
  else {}

/-- The PLA entry of a source after its unit's last clear or restore (R87, R292); zero elsewhere. -/
def basePla (a : Arr) (n : Nat) : Pla :=
  if isMsg n then { stamp := (SMap.get {} a.base (unitOf n)).stamp } else {}

/-- The SSA entry of a source (R144). -/
def State.entry (s : State) (n : Nat) : Entry := SMap.get (baseEntry s.arr n) s.arr.cells n

/-- The row of a source in its array (R160). -/
def rowOf (n : Nat) : Nat := n / 32

/-- The parity of a row of the SSA as a clear leaves it: 32 equal words cancel, but for the VEC that a preset counts up
(R87, R161). -/
def baseParity (a : Arr) (row : Nat) : BitVec 64 :=
  let n := 32 * row
  let u := SMap.get {} a.base (unitOf n)
  if isMsg n && u.preset then
    let v := (List.range 32).foldl (fun x j => x ^^^ (u.vecBase + BitVec.ofNat 16 ((n - 1024) % 512 + j))) (0 : BitVec 16)
    BitVec.ofNat 64 (v.toNat * 2 ^ 19)
  else 0

/-- The parity word of a row takes the difference that an update makes to one of its words (R161). -/
def Arr.flipSsa (a : Arr) (row : Nat) (d : BitVec 64) : Arr :=
  { a with ssaPar := SMap.upd (baseParity a row) a.ssaPar row fun x => x ^^^ d }

def Arr.flipPla (a : Arr) (row : Nat) (d : BitVec 64) : Arr :=
  { a with plaPar := SMap.upd 0 a.plaPar row fun x => x ^^^ d }

/-- Write an SSA entry and the parity word of its row (R161). -/
def Arr.putEntry (a : Arr) (n : Nat) (e : Entry) : Arr :=
  let old := SMap.get (baseEntry a n) a.cells n
  { a.flipSsa (rowOf n) (old.toWord ^^^ e.toWord) with cells := SMap.set (baseEntry a n) a.cells n e }

/-- Write a PLA entry and the parity word of its row (R161). -/
def Arr.putPla (a : Arr) (n : Nat) (p : Pla) : Arr :=
  let old := SMap.get (basePla a n) a.pla n
  { a.flipPla (rowOf n) (old.toWord ^^^ p.toWord) with pla := SMap.set (basePla a n) a.pla n p }

/-- Every parity word written from its row's data (R161, R168, R169). -/
def Arr.parityFresh (a : Arr) : Arr :=
  let b := a.cells.foldl (fun x p => x.flipSsa (rowOf p.1) ((baseEntry a p.1).toWord ^^^ p.2.toWord))
    { a with ssaPar := [], plaPar := [] }
  a.pla.foldl (fun x p => x.flipPla (rowOf p.1) ((basePla a p.1).toWord ^^^ p.2.toWord)) b

/-- Write the SSA entry of a source. -/
def State.setEntry (s : State) (n : Nat) (e : Entry) : State := s.onArr fun a => a.putEntry n e

/-- Change the SSA entry of a source in one read-modify-write (R148). -/
def State.onEntry (s : State) (n : Nat) (f : Entry → Entry) : State := s.setEntry n (f (s.entry n))

/-- Write STATE. -/
def State.setSt (s : State) (n : Nat) (st : SState) : State := s.onEntry n fun e => { e with state := st }

/-- The bit of a source in the express map (R133). -/
def State.mapBit (s : State) (n : Nat) : Bool := xor ((s.entry n).prio.toNat ≤ 7) (s.cfl.emapOdd.contains n)

/-- A commit writes an entry and the express map with it (R133). -/
def State.writeEntry (s : State) (n : Nat) (e : Entry) : State :=
  (s.setEntry n e).onCfl fun c =>
    { c with emapOdd := c.emapOdd.filter fun m => m ≠ n, emapLost := c.emapLost.filter fun m => m ≠ n }

/-- An SSA write past the transitions leaves the express map as it is (R133, R409). -/
def State.pokeEntry (s : State) (n : Nat) (e : Entry) : State :=
  let t := s.setEntry n e
  t.onCfl fun c =>
    { c with emapOdd := c.emapOdd.filter (fun m => m ≠ n) ++
               if decide (e.prio.toNat ≤ 7) = s.mapBit n then [] else [n] }

/-- The PLA entry of a source (R146). -/
def State.plaOf (s : State) (n : Nat) : Pla := SMap.get (basePla s.arr n) s.arr.pla n

/-- Change the PLA entry of a source. -/
def State.onPla (s : State) (n : Nat) (f : Pla → Pla) : State :=
  s.onArr fun a => a.putPla n (f (SMap.get (basePla a n) a.pla n))

/-- Whether a source lies in a message unit. -/
def inUnit (u n : Nat) : Bool := isMsg n && unitOf n == u

/-- Words of the SSA or PLA that are written anew hold no error any more. -/
def State.dropUpsets (s : State) (p : Bool → Nat → Bool) : State :=
  { s with upsets := s.upsets.filter fun u => match u with
      | .word pla n _ => !p pla n.toNat
      | _ => true }

/-- Clear a unit: entries to its preset, nothing linked, pending or stamped, its rows' parity and its part of the
express map with them (R87, R133, R161). -/
def State.clearUnit (s : State) (u : Nat) (b : UnitBase) : State :=
  let s := s.dropUpsets fun _ n => inUnit u n
  (s.onArr fun a =>
    { a with
      base := SMap.set {} a.base u b
      cells := a.cells.filter fun p => !inUnit u p.1
      pla := a.pla.filter fun p => !inUnit u p.1
      ssaPar := a.ssaPar.filter fun p => !inUnit u (32 * p.1)
      plaPar := a.plaPar.filter fun p => !inUnit u (32 * p.1)
      exits := a.exits.filter fun p => !inUnit u p.1 }).onCfl fun c =>
    { c with emapOdd := c.emapOdd.filter fun n => !inUnit u n, emapLost := c.emapLost.filter fun n => !inUnit u n }

/-- Write what the last clear of a unit wrote. -/
def State.setBase (s : State) (u : Nat) (x : UnitBase) : State :=
  s.onArr fun a =>
    let b := { a with base := SMap.set {} a.base u x }
    if a.cells.any fun p => inUnit u p.1 then b.parityFresh else b

/-! ### Slices, contexts and pools -/

/-- The slice record that an image gives, or none for an UNASSIGNED slice. -/
def State.sliceWorld (s : State) (i : Nat) : Bool := (s.slc i).info.world

/-- The slice whose extent holds a source; a unit cleared for a commit that was discarded has none (R108). -/
def State.extentSlice (s : State) (n : Nat) : Option Nat :=
  if isMsg n && !s.img.orphanUnits.contains (unitOf n) then (poolOfUnit s.img.active (unitOf n)).map poolSlice else none

/-- Whether a source lies in the pool of a slice. -/
def State.inPool (s : State) (i n : Nat) : Bool := s.extentSlice n == some i

/-- Slice-local number of a source in the pool of a slice, with GLOBAL (R172, R196, R231). -/
def State.localNum (s : State) (i n : Nat) : Bool × Nat :=
  if i ≠ 0 && s.inPool i n then (false, n - unitFirst (s.slc i).info.extFirst) else (true, n)

/-- No source of a range lies in a unit that has lost its owner (R108). -/
def State.rangeOwned (s : State) (first count : Nat) : Bool :=
  s.img.orphanUnits.all fun u => first + count ≤ unitFirst u || unitFirst u + 512 ≤ first

/-- Number of sources in a slice's pool. -/
def Slc.poolSize (x : Slc) : Nat := 512 * x.info.extUnits

/-- Contexts a slice owns, in ascending number. -/
def State.ctxsOf (s : State) (i : Nat) : List Nat :=
  (List.range 1024).filter fun c => (s.ctx c).inUse && (s.ctx c).slice == i

/-- Groups a slice owns, in ascending number. -/
def State.grpsOf (s : State) (i : Nat) : List Nat :=
  (List.range 512).filter fun g => (s.grp g).defined && (s.grp g).slice == i

/-- Whether a slice's requesters include the manager: any secure-world requester, or a normal-world one
whose PID maps to a normal-world slice 0 (R126, R273). -/
def State.isManager (s : State) (world : Bool) (pid : BitVec 20) : Bool :=
  world || (pidSlice s.img.active pid == some 0 && !s.sliceWorld 0 && (s.slc 0).state != .unassigned)

/-! ### The event trace (R435) -/

/-- Append to the trace, the oldest of more than 4,096 entries falling out. -/
def traceKeep (l : List (BitVec 64 × BitVec 64)) : List (BitVec 64 × BitVec 64) :=
  if l.length > 4096 then l.drop 1 else l

/-- Record an event: KIND 1 admission, 2 Select, 3 TAKE, 4 DECLINE, 5 REVOKE, 6 Return, 7 COMPLETE. -/
def State.traceAdd (s : State) (kind : Nat) (void : Bool) (ctx tag rank src : Nat) : State :=
  (s.onTrace fun l => traceKeep (l ++ [(s.stampSclk,
    pack [(60, 4, kind), (59, 1, b2n void), (58, 1, b2n (s.entry src).world), (48, 10, ctx),
          (36, 12, tag), (27, 9, rank), (0, 21, src)])])).drawn

/-! ### The boot log (R72) -/

/-- Write a boot log entry; the ring keeps 64, newest first. -/
def State.bootLog (s : State) (step outcome time : Nat) : State :=
  s.onBoot fun b => { b with log := ({ step := step, outcome := outcome, time := time } :: b.log).take 64 }

end Sys2Proof.Machine
end

