-- ==== Sys2Proof/Machine/Wake.lean ====
section
/-!
DEFINITION. Power domains below all work: their states, what a commit holds back, the eddy latch, PWR_REQ, and the wakes
that the sequencer starts or queues (R41, R44, R374, R376, R377, R383 to R386).
-/

namespace Sys2Proof.Machine

/-! ### Domain numbers (R41) -/

def dSTW : Nat := 0
def dCFL : Nat := 1
def dWEIR : Nat := 6
def dTB : Nat := 27

/-- The array quadrant of a source (R377). -/
def dARR (n : Nat) : Nat := 2 + (n / 524288) % 4

/-- The delivery domain of a port. -/
def dDLV (n : Nat) : Nat := 7 + n

/-- The link domain of a port. -/
def dLNK (p : Nat) : Nat := 23 + p

/-- State of a domain: 0 ON, 1 DOZE, 2 RETAIN, 3 DORMANT (R376). -/
def State.domSt (s : State) (d : Nat) : Nat := SMap.get 0 s.pwr.dom d

/-- Write the state of a domain. -/
def Pwr.setDom (p : Pwr) (d v : Nat) : Pwr := { p with dom := SMap.set 0 p.dom d v }

/-- Bit `d` of a domain mask. -/
def domBit (d : Nat) : BitVec 28 := BitVec.ofNat 28 (2 ^ d)

/-- Set or clear a bit of a domain mask. -/
def maskSet (m : BitVec 28) (d : Nat) (b : Bool) : BitVec 28 :=
  if b then m ||| domBit d else m &&& ~~~ domBit d

/-- A commit or its rollback holds back work for the domains it names (R383, R384). -/
def State.committing (s : State) (d : Nat) : Bool :=
  (s.pwr.phase == 2 || s.pwr.phase == 3) && bit s.pwr.named d

/-- A domain serves work: it is ON and no commit that names it is under way. -/
def State.avail (s : State) (d : Nat) : Bool := s.domSt d == 0 && !s.committing d

def State.allAvail (s : State) (ds : List Nat) : Bool := ds.all s.avail

/-! ### The eddy latch (R383 to R385) -/

/-- A wake event of a commit: the eddy latch records the first one and counts them, and the order of latching is kept;
the Weir's work for a domain is one event however often a pass meets it. -/
def State.eddyLatch (s : State) (kind d : Nat) : State :=
  s.onPwr fun p =>
    if kind = 6 && p.latched.contains (6, d) then p
    else
      let e := p.eddy
      { p with latched := p.latched ++ [(kind, d)],
               eddy :=
                 if e.count = 0 then { e with tick := lo32 s.now, count := 1, kind := kind, domain := d }
                 else { e with count := satInc 8 e.count } }

/-! ### Wakes (R44, R374, R386) -/

/-- PWR_REQ of a domain takes a value, which the handshake allows only while PWR_ACK equals it (R44). -/
def Pwr.setReq (p : Pwr) (d : Nat) (v : Bool) : Pwr :=
  if bit p.req d = bit p.ack d then { p with req := maskSet p.req d v } else p

/-- PWR_REQ of a domain rises, if the handshake allows it now. -/
def State.raiseReq (s : State) (d : Nat) : State := s.onPwr fun p => p.setReq d true

/-- The sequencer can wake domains: no level change, ageing step, prepare, commit or rollback is under way. The pause
between two readings of an ageing loop is no operation, and the level that a wake restores belongs to the wake (R374,
R387, R391). -/
def State.wakeFree (s : State) : Bool :=
  (match s.lev.op with
    | .idle => true
    | .ageWait _ => true
    | .wakeLevel _ => true
    | _ => false) && (s.pwr.phase = 0 || s.pwr.phase = 4)

/-- A domain in RETAIN or DORMANT is to be powered: PWR_REQ rises once the handshake of the stop has ended, or the wake
is queued behind the operation that the sequencer runs (R44, R374, R386). The model's choice: domains that are asked for
while a wake runs join it (DEDUCED, assumption log entry 82). -/
def State.requestPower (s : State) (d : Nat) : State :=
  if 2 ≤ s.domSt d && !bit s.pwr.waking d then
    if s.wakeFree then
      (s.onPwr fun p => { p with waking := maskSet p.waking d true, wakeQ := maskSet p.wakeQ d false,
                                 wakes := satInc 16 p.wakes }).raiseReq d
    else s.onPwr fun p => { p with wakeQ := maskSet p.wakeQ d true }
  else s

/-- Begin the wake of a domain; TB wakes with the first domain of a DORMANT block (R253, R386). -/
def State.startWake (s : State) (d : Nat) : State :=
  if 2 ≤ s.domSt d then (s.requestPower d).requestPower dTB else s

/-- Work that needs domains which do not serve it waits: it is a wake event of a commit that names one of
them, else it wakes each that is not ON (R383, R386). -/
def State.wakeFor (s : State) (ds : List Nat) (kind : Nat) : State :=
  match ds.find? s.committing with
  | some d => s.eddyLatch kind d
  | none => ds.foldl State.startWake s

/-- Work that has waited already still does: it has set the eddy latch when it came. -/
def State.wakeAgain (s : State) (ds : List Nat) : State :=
  if ds.any s.committing then s else ds.foldl State.startWake s

/-- Work for one domain, not the Weir's: its vote is withdrawn, its DOZE ends, and it wakes (R381, R382, R386). -/
def State.callDom (s : State) (d kind : Nat) : State :=
  let t := s.onPwr fun p => if p.phase == 1 then { p with votes := maskSet p.votes d false } else p
  let t := if t.domSt d = 1 then t.onPwr fun p => p.setDom d 0 else t
  if t.avail d then t else t.wakeFor [d] kind

end Sys2Proof.Machine
end

