-- ==== Sys2Proof/Machine/Flags.lean ====
section
/-!
DEFINITION. Error classes, reactions, the error log, the safety outputs, the fatal sequence and the
self-sources (R143, R396 to R403, R426 to R431).
-/

namespace Sys2Proof.Machine

/-! ### Self-sources -/

/-- Set the latch of a self-source or of link-raised source 14 or 15: a raise that finds an earlier one
waiting is merged into it; its firing needs the confluence (R119, R143, R377, R386). The model's choice: KIND of PWR_EDDY
is 1 for it (DESIGN CHOICE, assumption log entry 83). -/
def State.latchRaise (s : State) (n : Nat) (t : Tick) : State :=
  (s.onLatch n fun l => if l.valid then l else { valid := true, stamp := t, kind := .fire }).callDom dCFL 1

/-- Raise a self-source now, or at READY while the block starts (R63, R143). -/
def State.raiseSelf (s : State) (n : Nat) : State :=
  if s.boot.mode == .starting then
    s.onBoot fun b => { b with readyRaise := if b.readyRaise.contains n then b.readyRaise
                                             else b.readyRaise ++ [n] }
  else (s.latchRaise n s.stampSclk).drawn

/-! ### Reactions -/

/-- The reaction a class takes: its safety reactions record, else its minimum; operational classes read 1
(R398, R399, R427). -/
def State.reaction (s : State) (cls : Nat) : Nat :=
  if isFailClass cls then SMap.get (minReaction cls) s.saf.react cls else 1

/-- Bit `cls` of SAF_SIG (R401). -/
def sigBit (cls : Nat) : BitVec 32 := BitVec.ofNat 32 (2 ^ (cls % 32))

/-- SIGNAL: the class's bit is set and the rails are held at 1 (R398). -/
def State.signal (s : State) (cls : Nat) : State :=
  s.onSaf fun x => { x with sig := x.sig ||| sigBit cls, rails := .error }

/-- Every enabled link port sends EIOS and enters electrical idle (R402 step 3). -/
def State.allIdle (s : State) : State :=
  s.onLports fun m => SMap.mapVals {} (fun _ x =>
    if x.lanes.enabled && !x.lanes.idleTx then
      { x with lanes := { x.lanes.control .eios with idleTx := true, waking := false } }
    else x) m

/-- Each delivery port keeps only the downstream message that is valid on it, and its upstream messages are no longer
accepted (R402 step 2, R437). -/
def State.dropDownstream (s : State) : State :=
  s.onPorts fun m => SMap.mapVals {} (fun _ x => { x with down := x.down.take 1, upq := [] }) m

/-- A doorbell port answers; its responses keep their order (R22, R25). -/
def State.dbAnswer (s : State) (port : BitVec 2) (tag : BitVec 8) (fault : Bool) : State :=
  s.onCfl fun c =>
    { c with db := SMap.upd [] c.db port.toNat (fun l => keepResp 32 l { tag := tag, fault := fault, data := 0 }) }

/-- Every waiting doorbell write completes with FAULT (R74, R402). -/
def State.failDbWait (s : State) : State :=
  (s.cfl.dbWait.foldl (fun t w => t.dbAnswer w.req.port w.req.tag true) s).onCfl
    fun c => { c with dbWait := [] }

/-- A FATAL reaction began in an earlier SCLK cycle: classes are only counted. Classes of one tick are those of one cycle
(R403, R437; DEDUCED, assumption log entry 104). -/
def State.fatalPast (s : State) : Bool := s.fatal.inSeq && s.fatal.tick != s.now

/-- FATAL: the first steps of the fatal sequence, taken once; the dump is a command of its own (R402, R403). -/
def State.goFatal (s : State) (cls : Nat) : State :=
  let t := s.onSaf fun x =>
    { x with sig := x.sig ||| sigBit cls, fatalSig := x.fatalSig ||| sigBit cls, rails := .error,
             fatalOut := true }
  if s.fatal.inSeq then t
  else (t.onFatal fun f => { f with inSeq := true, tick := s.now, cls := cls }).allIdle.dropDownstream.failDbWait

/-- The reaction part of a detection (R398). -/
def State.react (s : State) (cls : Nat) : State :=
  match s.reaction cls with
  | 0 => s
  | 1 => s.raiseSelf 1000
  | 2 => (s.raiseSelf 1000).signal cls
  | _ => (s.raiseSelf 1000).goFatal cls

/-! ### The error log -/

/-- Unread records (R430). -/
def Saf.unread (x : Saf) : Nat := (x.head + 256 - x.tail) % 256

/-- Write one record into the ring: a full ring loses it, a COUNT record needs 32 free entries (R429). -/
def Saf.put (x : Saf) (react : Nat) (r : BitVec 64 × BitVec 64) : Saf :=
  if react == 0 && 255 - x.unread < 32 then { x with skipped := satInc 32 x.skipped }
  else if x.unread = 255 then { x with lost := satInc 32 x.lost }
  else { x with log := SMap.put x.head r x.log, head := (x.head + 1) % 256 }

/-- Count a detection of a class (R429). -/
def State.clsCount (s : State) (cls : Nat) : State :=
  s.onSaf fun x => { x with cls := SMap.upd 0 x.cls cls (satInc 32) }

/-- Word 1 of an error record (R427). -/
def errWord (cls react : Nat) (slice : Option Nat) (kind obj detail : Nat) : BitVec 64 :=
  pack [(58, 6, cls), (56, 2, react), (55, 1, b2n slice.isSome), (43, 12, slice.getD 0),
        (40, 3, kind), (16, 24, obj), (0, 16, detail)]

/-- Count a detection and write its record with word 0 given; after the cycle of a FATAL reaction it is only counted
(R403, R429, R437). -/
def State.logAt (s : State) (w0 : BitVec 64) (cls : Nat) (slice : Option Nat) (kind obj detail : Nat) :
    State :=
  let t := s.clsCount cls
  if s.fatalPast then t
  else t.onSaf fun x => x.put (s.reaction cls) (w0, errWord cls (s.reaction cls) slice kind obj detail)

/-- Count and record a detection made now. -/
def State.logErr (s : State) (cls : Nat) (slice : Option Nat) (kind obj detail : Nat) : State :=
  (s.logAt s.stampSclk cls slice kind obj detail).drawn

/-- A failure class: count, record, reaction; after the cycle of a FATAL reaction only the count (R398, R403). -/
def State.fail (s : State) (cls : Nat) (slice : Option Nat) (kind obj detail : Nat) : State :=
  let t := s.logErr cls slice kind obj detail
  if s.fatalPast then t else t.react cls

/-- An operational class: count, record and its self-source (R428). -/
def State.note (s : State) (cls self : Nat) (slice : Option Nat) (kind obj detail : Nat) : State :=
  let t := s.logErr cls slice kind obj detail
  if s.fatalPast then t else t.raiseSelf self

/-! ### Objects of a record (R427) -/

/-- The slice a source belongs to: its extent's, the slice of a proxy or the SLICE of a locked or wired
entry; none for a unit of no slice (R469). -/
def State.sourceSlice (s : State) (n : Nat) : Option Nat :=
  if isMsg n then
    if s.cas.pxUnits.contains (unitOf n) then some (s.entry n).slice.toNat else s.extentSlice n
  else some (s.entry n).slice.toNat

/-- The slice that owns a context in use. -/
def State.ctxSlice (s : State) (c : Nat) : Option Nat :=
  if (s.ctx c).inUse then some (s.ctx c).slice else none

/-- The slice that owns a group. -/
def State.grpSliceOf (s : State) (g : Nat) : Option Nat :=
  if (s.grp g).defined then some (s.grp g).slice else none

/-- A failure class about a source. -/
def State.failSrc (s : State) (cls n detail : Nat) : State := s.fail cls (s.sourceSlice n) 1 n detail

/-- A failure class about a context. -/
def State.failCtx (s : State) (cls c detail : Nat) : State := s.fail cls (s.ctxSlice c) 2 c detail

/-- A failure class about a link port and physical lane. -/
def State.failPort (s : State) (cls p l detail : Nat) : State :=
  s.fail cls none 4 (p * 16 + l) detail

/-- The LINK_STATE class of a port, which raises self-source 1,004 (R428 class 0x23). -/
def State.linkState (s : State) (p what reason : Nat) : State :=
  s.note 0x23 1004 none 4 (p * 16) (what * 4096 + reason % 16)

/-- The POWER class, which raises self-source 1,005 (R428 class 0x24): a level has bit 7 set. -/
def State.powerEvent (s : State) (isLevel : Bool) (obj what code : Nat) : State :=
  s.note 0x24 1005 none 5 (if isLevel then 128 + obj else obj) (what * 4096 + code % 16)

/-- Array position object: array 0 SSA, 1 PLA, 2 Queue Head Table, 3 link store or express map. -/
def arrObj (arr bank row : Nat) : Nat := arr * 2 ^ 22 + (bank % 64) * 2 ^ 16 + row % 65536

/-! ### Serving -/

/-- The block serves events: READY or SAFE_MINIMAL, and no fatal sequence has begun (R65, R402). -/
def State.serving (s : State) : Bool :=
  (s.boot.mode == .ready || s.boot.mode == .safeMinimal) && !s.fatal.inSeq

/-- The steward answers mailbox accesses: not in a start or a HALTED block that has not passed step 5, whose
steward runs no ROM (R64, R67), nor in a warm reset before it runs again (R74). -/
def State.mailServed (s : State) : Bool :=
  match s.boot.mode with
  | .starting => if s.boot.warm then !s.boot.wrstLow && s.boot.warmTest.isNone else 6 ≤ s.boot.step
  | .halted => s.boot.exit = 0 || 6 ≤ s.boot.exit
  | _ => true

/-- Work that a FATAL reaction stops (R402, R437). -/
def State.unlessFatal (s : State) (f : State → State) : State := if s.fatal.inSeq then s else f s

/-- A capture, frame or message that comes after a FATAL reaction is discarded and counted in LATE
(R437). -/
def State.late (s : State) : State := s.onFatal fun f => { f with late := satInc 32 f.late }

end Sys2Proof.Machine
end

