-- ==== Sys2Proof/Machine/Link.lean ====
section
/-!
DEFINITION. The link layer as the block sends: frame bytes, sequence numbers, replay buffer, batches,
routing over the MAP, E2E numbers, alarms (R335 to R341, R346, R359, R362 to R364, R366, R367).
-/

namespace Sys2Proof.Machine

/-! ### Frame bytes (R335, R336) -/

/-- TYPE byte. -/
def bodyType : FrameBody → Nat
  | .event .. => 0x01 | .proxy .. => 0x02 | .pret .. => 0x03 | .summary .. => 0x04 | .time .. => 0x05
  | .alarm .. => 0x06 | .topo .. => 0x07 | .tag .. => 0x08 | .auth .. => 0x09 | .ack .. => 0x0A

/-- A frame byte string as one little-endian number: fields `(first byte, bits, value)`. -/
def packFrame (fs : List (Nat × Nat × Nat)) : BitVec 224 :=
  fs.foldl (fun acc f => acc ||| BitVec.ofNat 224 ((f.2.2 % 2 ^ f.2.1) <<< (8 * f.1))) 0

/-- The payload fields of a frame, with its E2E number. -/
def bodyFields (e2e : Nat) : FrameBody → List (Nat × Nat × Nat)
  | .event st g k px => [(7, 64, st.toNat), (15, 24, g.toNat), (18, 8, k.toNat), (19, 16, px.toNat),
                         (21, 16, e2e)]
  | .proxy op g en st fl px => [(7, 8, op.toNat), (8, 24, g.toNat), (11, 64, en.toNat),
                                (19, 32, st.toNat), (23, 8, fl.toNat), (24, 16, e2e), (26, 16, px.toNat)]
  | .pret op ca g px st fl => [(7, 8, op.toNat), (8, 8, ca.toNat), (9, 24, g.toNat), (12, 16, px.toNat),
                               (14, 32, st.toNat), (18, 8, fl.toNat), (19, 16, e2e)]
  | .summary es =>
    [(7, 8, es.length),
     (8, 160, (es.zipIdx.foldl (fun acc p => acc + p.1.toNat <<< (20 * p.2)) 0))]
  | .time b => [(7, 120, b.toNat)]
  | .alarm st org line tok => [(7, 64, st.toNat), (15, 8, org.toNat + 8 * line.toNat), (16, 96, tok.toNat)]
  | .topo op ep hw mem data => [(7, 8, op.toNat), (8, 8, ep.toNat), (9, 8, hw.toNat), (10, 8, mem.toNat),
                                (11, 128, data.toNat)]
  | .tag mac first count => [(7, 96, mac.toNat), (19, 16, first.toNat), (21, 8, count.toNat)]
  | .auth st off ch => [(7, 8, st.toNat), (8, 16, off.toNat), (10, 144, ch.toNat)]
  | .ack a => [(7, 16, a.toNat)]

/-- Bytes 0 to 27 of a frame, the authenticated data of its batch (R346). -/
def frameBytes (f : Frame) : BitVec 224 :=
  packFrame ([(0, 8, bodyType f.body), (1, 8, b2n f.urgent + 2 * b2n f.nak + 4 * b2n f.replay),
              (2, 16, f.seq.toNat), (4, 16, f.ack.toNat), (6, 8, f.dst.toNat + 8 * f.org.toNat)]
             ++ bodyFields f.e2e.toNat f.body)

/-- The body of a frame and its E2E number, read from bytes 0 to 27; none for a TYPE of no kind (R336). -/
def frameBody (b : BitVec 224) : Option (FrameBody × BitVec 16) :=
  let g (at_ w : Nat) : BitVec w := b.extractLsb' (8 * at_) w
  match (g 0 8).toNat with
  | 0x01 => some (.event (g 7 64) (g 15 24) (g 18 8) (g 19 14), g 21 16)
  | 0x02 => some (.proxy (g 7 8) (g 8 24) (g 11 64) (g 19 32) (g 23 8) (g 26 14), g 24 16)
  | 0x03 => some (.pret (g 7 8) (g 8 8) (g 9 24) (g 12 14) (g 14 32) (g 18 8), g 19 16)
  | 0x04 => some (.summary ((List.range (min 8 (g 7 8).toNat)).map fun k => b.extractLsb' (64 + 20 * k) 20), 0)
  | 0x05 => some (.time (g 7 120), 0)
  | 0x06 => some (.alarm (g 7 64) (g 15 3) (b.extractLsb' 123 5) (g 16 96), 0)
  | 0x07 => some (.topo (g 7 8) (g 8 8) (g 9 3) (g 10 8) (g 11 128), 0)
  | 0x08 => some (.tag (g 7 96) (g 19 12) (g 21 8), 0)
  | 0x09 => some (.auth (g 7 8) (g 8 16) (g 10 144), 0)
  | 0x0A => some (.ack (g 7 16), 0)
  | _ => none

/-- A frame read from its bytes 0 to 27 (R335, R336). -/
def frameOf (b : BitVec 224) : Option Frame :=
  (frameBody b).map fun x =>
    { urgent := bit b 8, nak := bit b 9, replay := bit b 10, seq := b.extractLsb' 16 12, ack := b.extractLsb' 32 12,
      dst := b.extractLsb' 48 3, org := b.extractLsb' 51 3, e2e := x.2, body := x.1 }

/-- The 32 bytes of a frame: bytes 0 to 27 and their CRC (R335). -/
def frameWords (f : Frame) : BitVec 256 := crc32 (bytesLE 28 (frameBytes f)) ++ frameBytes f

end Sys2Proof.Machine

namespace Sys2Proof

open Sys2Proof.Machine

/-- Bytes 0 to 27 of a received frame, which its CRC and its batch's TAG cover (R335, R346). -/
def RxFrame.data (x : RxFrame) : BitVec 224 := x.bytes.extractLsb' 0 224

/-- The CRC check of a received frame; one with a TYPE of no kind counts as bad (R335, R336, R340). -/
def RxFrame.crcOk (x : RxFrame) : Bool :=
  crc32 (bytesLE 28 x.data) == x.bytes.extractLsb' 224 32 && (frameBody x.data).isSome

/-- The frame that the bytes spell. -/
def RxFrame.frame (x : RxFrame) : Frame :=
  (frameOf x.data).getD
    { urgent := false, nak := false, replay := false, seq := 0, ack := 0, dst := 0, org := 0, e2e := 0, body := .ack 0 }

end Sys2Proof

namespace Sys2Proof.Machine

/-! ### Sending on one port -/

/-- A frame takes its place in the transmit stripe, in front of one that an injected error holds back (R297, R367). -/
def PortLanes.line (x : PortLanes) (f : Frame) (bad : Bool) : PortLanes :=
  { x with txq := x.txq ++ [.frame f bad] ++ (x.swap.map fun g => TxItem.frame g false).toList, swap := none }

/-- The first transmission of a frame, with the injection MODE that meets it: DROP, CORRUPT or REORDER (R367). -/
def PortLanes.lineInj (x : PortLanes) (f : Frame) (mode : Nat) : PortLanes :=
  match mode with
  | 1 => x
  | 2 => x.line f true
  | 3 => { x.line f false with txq := x.txq ++ (x.swap.map fun g => TxItem.frame g false).toList, swap := some f }
  | _ => x.line f false

/-- A TAG or AUTH frame; it has no place in the sequence (R342, R346; DEDUCED, assumption log entry 74). -/
def LPort.tagFrame (x : LPort) (dev : Nat) (b : FrameBody) : Frame :=
  { urgent := false, nak := false, replay := false, seq := x.seq, ack := x.expect, dst := BitVec.ofNat 3 x.pdev,
    org := BitVec.ofNat 3 dev, e2e := 0, body := b }

/-- Close the open batch of a port: its TAG frame is sent and the batch counter rises (R346). -/
def State.closeBatch (s : State) (p : Nat) : State :=
  let lp := s.lport p
  match lp.batch with
  | [] => s
  | f :: _ =>
    let mac := match (s.lauthOf p).keys with
      | some k => Config.gmac k.gmacTx k.ivTx lp.txBatch (lp.batch.map frameBytes)
      | none => 0
    let b : FrameBody := .tag mac f.seq (BitVec.ofNat 8 lp.batch.length)
    s.onLport p fun x =>
      { x with lastTag := some b, batch := [], txBatch := x.txBatch + 1,
               lanes := x.lanes.line (x.tagFrame s.straps.devid b) false }

/-- Whether a frame is eligible for injection: never ALARM, AUTH or TAG (R367). -/
def bodyInjectable : FrameBody → Bool
  | .alarm .. => false | .auth .. => false | .tag .. => false | _ => true

/-- Injection armed for the next first transmission of an eligible frame: by ONE, or periodic (R367,
R371). -/
def State.injects (s : State) (p : Nat) (b : FrameBody) : Bool :=
  let a := s.lauthOf p
  s.cas.injEn && bodyInjectable b && a.injMode ≠ 0 &&
    (a.injOne || (a.injPer && (a.injCnt + 1) % 2 ^ (4 + a.injRate) == 0))

/-- An ALARM frame that goes on the line of a port takes a fresh token of the port's direction (R363). -/
def State.tokened (s : State) (p : Nat) (f : Frame) : State × Frame :=
  match f.body, (s.lauthOf p).keys with
  | .alarm st o l _, some key =>
    (s.onLauthOf p fun x => { x with alarmTx := x.alarmTx + 1 },
     { f with body := .alarm st o l (Config.alarmToken key.alarmTx (s.lauthOf p).alarmTx) })
  | _, _ => (s, f)

/-- One frame enters the transmit stripe with the next SEQ and goes to the replay buffer (R339). -/
def State.transmit (s : State) (p : Nat) (f : Frame) : State :=
  let lp := s.lport p
  let (s, f) := s.tokened p f
  let g : Frame := { f with seq := lp.seq, ack := lp.expect, nak := lp.nak, replay := false }
  let t := s.onLport p fun x =>
    { x with seq := x.seq + 1, replayBuf := x.replayBuf ++ [g], batch := x.batch ++ [g], nak := false,
             lanes := x.lanes.lineInj g (if s.injects p f.body then (s.lauthOf p).injMode else 0) }
  let t := if s.injects p f.body then
      t.onLauthOf p fun a => { a with injOne := false, injCnt := a.injCnt + 1,
                                      injected := satInc 16 a.injected }
    else if bodyInjectable f.body then t.onLauthOf p fun a => { a with injCnt := a.injCnt + 1 }
    else t
  if f.urgent || (t.lport p).batch.length ≥ 32 then t.closeBatch p else t

/-- Send a frame on a port that is UP, whose domain wakes for it; with 512 frames unacknowledged it waits its turn (R339,
R377, R386). -/
def State.sendOn (s : State) (p : Nat) (f : Frame) : State :=
  let lp := s.lport p
  if lp.state ≠ .up then s
  else
    let t := s.callDom (dLNK p) 3
    if t.avail (dLNK p) && lp.replayBuf.length < 512 && lp.relayq.isEmpty then t.transmit p f
    else t.onLport p fun x => { x with relayq := x.relayq ++ [f] }

/-- Frames that waited for room in the replay buffer or for their port's domain are sent (R339, R386). -/
def State.drainPort (s : State) (p : Nat) : State :=
  (s.lport p).relayq.foldl
    (fun t f =>
      if (t.lport p).state = .up && t.avail (dLNK p) && (t.lport p).replayBuf.length < 512 then
        (t.onLport p fun x => { x with relayq := x.relayq.drop 1 }).transmit p f
      else t) s

/-- Ports that are UP, in ascending number. -/
def State.upPorts (s : State) : List Nat := (List.range 4).filter fun p => (s.lport p).state = .up

/-- Send a frame on every port that is UP but one, each copy to the device at the other end, which floods it on. -/
def State.flood (s : State) (except : Option Nat) (f : Frame) : State :=
  (s.upPorts.filter fun p => some p ≠ except).foldl
    (fun t p => t.sendOn p { f with dst := BitVec.ofNat 3 (t.lport p).pdev }) s

/-- Own DEVID. -/
def State.dev (s : State) : Nat := s.straps.devid

/-- A frame of this device. -/
def State.frame (s : State) (dst : Nat) (urgent : Bool) (e2e : Nat) (b : FrameBody) : Frame :=
  { urgent := urgent, nak := false, replay := false, seq := 0, ack := 0, dst := BitVec.ofNat 3 dst,
    org := BitVec.ofNat 3 s.dev, e2e := BitVec.ofNat 16 e2e, body := b }

/-! ### Routing (R341, R350) -/

/-- The neighbour of a device on a port in the current MAP (R336). -/
def Cas.nbr (c : Cas) (d p : Nat) : Option Nat :=
  if bit c.map (16 * d + 4 * p + 3) then some (fld c.map (16 * d + 4 * p) 3) else none

/-- Whether the MAP has a path of at most `k` hops. -/
def Cas.reach (c : Cas) : Nat → Nat → Nat → Bool
  | 0, a, b => a == b
  | k + 1, a, b =>
    a == b || (List.range 4).any fun p => match c.nbr a p with
      | some d => Cas.reach c k d b
      | none => false

/-- The port of the next hop: the shortest path in the MAP, the lower port number among equal lengths; a
neighbour on an UP port while no MAP is known (R341). -/
def State.nextHop (s : State) (dst : Nat) : Option Nat :=
  if s.cas.mapKnown then
    (List.range 8).findSome? fun k =>
      (List.range 4).find? fun p =>
        (s.lport p).state = .up && (match s.cas.nbr s.dev p with
          | some d => Cas.reach s.cas k d dst
          | none => false)
  else (List.range 4).find? fun p => (s.lport p).state = .up && (s.lport p).pdev == dst

/-- Send a frame towards its destination; without a path it is not sent. -/
def State.sendTo (s : State) (dst : Nat) (f : Frame) : State :=
  match s.nextHop dst with
  | some p => s.sendOn p f
  | none => s

/-! ### E2E (R341) -/

/-- The E2E state with a device. -/
def State.e2eOf (s : State) (d : Nat) : E2e := SMap.get {} s.cas.e2e d

def State.onE2e (s : State) (d : Nat) (f : E2e → E2e) : State :=
  s.onCas fun c => { c with e2e := SMap.upd {} c.e2e d f }

/-- Send an EVENT, PROXY or PRET frame with the next E2E number; the origin keeps it, and with 1,024 kept
a new one waits for an ACK. -/
def State.sendE2e (s : State) (d : Nat) (urgent : Bool) (b : FrameBody) : State :=
  let e := s.e2eOf d
  let f := s.frame d urgent e.next b
  let t := s.onE2e d fun x => { x with next := (x.next + 1) % 65536, kept := x.kept ++ [f] }
  if e.kept.length < 1024 then t.sendTo d f else t

/-- Whether an event of a source travels with URGENT: sovereign or express (R133, R346). -/
def Entry.urgent (e : Entry) : Bool := e.sov || e.prio.toNat ≤ 7

/-- GSRC of a source of device `d` (R336). -/
def gsrcOf (d n : Nat) : BitVec 24 := BitVec.ofNat 24 (d * 2 ^ 21 + n)

/-- A device is a member of the cascade (R350). -/
def State.isMember (s : State) (d : Nat) : Bool := bit s.cas.members d

/-! ### Alarms (R362 to R364, R366) -/

/-- A QUARANTINED port sends a batch of one ALARM, with its TAG and no replay (R363, R366). -/
def State.alarmBatch (s : State) (p : Nat) (f : Frame) : State :=
  let x := s.lport p
  let (s, f) := s.tokened p f
  let g : Frame := { f with seq := x.seq, ack := x.expect }
  (s.onLport p fun y => { y with batch := [g], seq := y.seq + 1, lanes := y.lanes.line g false }).closeBatch p

/-- An ALARM frame on one port; it takes its token when it is sent. A QUARANTINED port sends it three times, the first
time once its domain serves (R363, R366, R386). -/
def State.alarmOn (s : State) (p : Nat) (stamp : BitVec 64) (org line : Nat) : State :=
  let f := { s.frame 0 true 0 (.alarm stamp (BitVec.ofNat 3 org) (BitVec.ofNat 5 line) 0) with
             dst := BitVec.ofNat 3 (s.lport p).pdev }
  match (s.lport p).state with
  | .up => s.sendOn p f
  | .quarantined =>
    let t := s.callDom (dLNK p) 3
    if t.avail (dLNK p) then (t.onLauthOf p fun x => { x with qRepeat := x.qRepeat ++ [(f, 2)] }).alarmBatch p f
    else t.onLauthOf p fun x => { x with qRepeat := x.qRepeat ++ [(f, 3)] }
  | _ => s

/-- An alarm goes out on every port that is UP or QUARANTINED but the one it came from. -/
def State.alarmOut (s : State) (except : Option Nat) (stamp : BitVec 64) (org line : Nat) : State :=
  ((List.range 4).filter fun p => some p ≠ except).foldl (fun t p => t.alarmOn p stamp org line) s

/-- Originate an alarm of this device and remember it (R362, R364). -/
def State.alarmOriginate (s : State) (stamp : BitVec 64) (line : Nat) : State :=
  (s.onCas fun c => { c with alarms := c.alarms ++ [(BitVec.ofNat 3 s.dev, BitVec.ofNat 5 line, stamp, s.now)] }
    ).alarmOut none stamp s.dev line

end Sys2Proof.Machine
end

