-- ==== Sys2Proof/Machine/Blocks.lean ====
section
/-!
DEFINITION. The line of a port: blocks, their payloads and check, the scrambler, the gearbox, the stripe, and what each
block period puts on the lanes (R297, R300, R302 to R306, R312, R313, R319, R335, R337).
-/

namespace Sys2Proof.Machine

/-! ### Blocks (R302) -/

/-- Sync header of a block: its first two bits on the line, the first one bit 0 (DEDUCED, assumption log entry 74). -/
def blkHdr (b : BitVec 130) : BitVec 2 := b.extractLsb' 0 2

/-- The 16 payload bytes of a block, byte 0 lowest. -/
def blkPay (b : BitVec 130) : BitVec 128 := b.extractLsb' 2 128

/-- A block of a header and a payload. -/
def mkBlk (h : BitVec 2) (p : BitVec 128) : BitVec 130 := p ++ h

/-- A valid header: 0b01 data, 0b10 control. -/
def syncOk (h : BitVec 2) : Bool := h == 1 || h == 2

/-- The 13 lane words of 4 blocks. -/
def gearbox (bs : List (BitVec 130)) : List (BitVec 40) :=
  let v := BitVec.ofNat 520 (bs.zipIdx.foldl (fun v p => v + p.1.toNat * 2 ^ (130 * p.2)) 0)
  (List.range 13).map fun i => v.extractLsb' (40 * i) 40

/-- Polarity inversion in the word path (R300). -/
def polar (inv : Bool) (w : BitVec 40) : BitVec 40 := if inv then ~~~w else w

/-! ### Control blocks (R303) -/

/-- A payload: fields `(first bit, width, value)`. -/
def packPay (fs : List (Nat × Nat × Nat)) : BitVec 128 :=
  fs.foldl (fun acc f => acc ||| BitVec.ofNat 128 ((f.2.2 % 2 ^ f.2.1) <<< f.1)) 0

def idlePay : BitVec 128 := 0x1E

def eiosPay : BitVec 128 := 0x55555555555555555555555555555555

def alignPay (k dev port : Nat) (mask : BitVec 4) (count : BitVec 32) : BitVec 128 :=
  packPay [(0, 8, 0x2D), (8, 8, k), (16, 4, mask.toNat), (24, 3, dev), (27, 2, port), (32, 32, count.toNat)]

def lanePay (b : LaneBlk) : BitVec 128 :=
  packPay [(0, 8, 0x4B), (8, 8, b.op), (16, 8, b.k), (24, 8, b.reason), (32, 4, b.mask.toNat)]

def tsPay (m : TsMsg) : BitVec 128 :=
  packPay [(0, 8, 0x66), (8, 8, m.phase.toNat), (16, 8, m.logical.toNat), (24, 8, m.lanes.toNat),
           (32, 3, m.devid.toNat), (35, 2, m.port.toNat), (40, 4, m.deemph.toNat), (47, 1, b2n m.reqVal),
           (48, 1, b2n m.pass)]

/-- Bytes 1 to 15 of a MARKER (R337). -/
def markerPay (m : MarkerMsg) : BitVec 128 :=
  packPay [(0, 8, 0x33), (8, 3, m.hops.toNat), (12, 3, m.state.toNat), (16, 8, m.seq.toNat), (24, 8, m.rseq.toNat),
           (32, 48, m.tA.toNat), (80, 48, m.tB.toNat)]

/-- A control payload is valid: a known type, zero bytes where the table gives zero. -/
def ctlOk (p : BitVec 128) : Bool :=
  match fld p 0 8 with
  | 0x1E => p == idlePay
  | 0x2D => fld p 64 64 == 0
  | 0x33 => true
  | 0x4B => fld p 40 88 == 0
  | 0x55 => p == eiosPay
  | 0x66 => fld p 56 72 == 0
  | _ => false

/-- A block as descrambled is valid (R303, R306). -/
def blkOk (b : BitVec 130) : Bool := blkHdr b == 1 || (blkHdr b == 2 && ctlOk (blkPay b))

/-! ### The scrambler (R304) -/

/-- The scrambler of a logical lane after an ALIGN block. -/
def scrReset (k : Nat) : BitVec 31 := BitVec.ofNat 31 (0x5A5A5A5A ^^^ (k * 0x01010101))

/-- One bit of the keystream: taps 31 and 28. -/
def scrBit (l : BitVec 31) : BitVec 31 × Bool :=
  let b := xor (l.getLsbD 30) (l.getLsbD 27)
  ((l <<< 1) ||| BitVec.ofNat 31 (b2n b), b)

/-- The keystream of 128 bits, the first one lowest. -/
def scrKey (l : BitVec 31) : BitVec 31 × BitVec 128 :=
  (List.range 128).foldl (fun a i =>
    ((scrBit a.1).1, a.2 ||| BitVec.ofNat 128 (b2n (scrBit a.1).2 * 2 ^ i))) (l, 0)

/-- ALIGN, EIOS and TS neither use the keystream nor advance it; their type byte is never scrambled. -/
def plainCtl (b : BitVec 130) : Bool :=
  blkHdr b == 2 && (fld b 2 8 == 0x2D || fld b 2 8 == 0x55 || fld b 2 8 == 0x66)

/-- Scramble or descramble a block: every bit of a data block, bytes 1 to 15 of a control block. A block with an invalid
header advances the keystream as a data block does (DEDUCED, assumption log entry 74). -/
def scramble (l : BitVec 31) (b : BitVec 130) : BitVec 31 × BitVec 130 :=
  if plainCtl b then (l, b)
  else
    let (m, key) := scrKey l
    let k := if blkHdr b = 2 then key &&& ~~~(0xFF : BitVec 128) else key
    (m, mkBlk (blkHdr b) (blkPay b ^^^ k))

/-! ### Frames as blocks (R297, R335) -/

/-- The 32 bytes of a frame: bytes 0 to 27 and their CRC; an injected error inverts one bit, which one is a free value
(R367, assumption log entry 1). -/
def frameLine (f : Frame) (bad : Bool) : BitVec 256 :=
  if bad then frameWords f ^^^ BitVec.ofNat 256 (2 ^ (Config.corruptBit (frameBytes f) % 256)) else frameWords f

/-! ### Transmit -/

/-- 130 bits go through the gearbox of a lane, whose words take its polarity (R300, R302). -/
def Lane.putRaw (x : Lane) (b : BitVec 130) : Lane :=
  let g := x.gear ++ [b]
  if g.length = 4 then { x with gear := [], words := (gearbox g).map (polar x.txInv) } else { x with gear := g }

/-- A block goes through the scrambler and the gearbox of a lane. -/
def Lane.put (x : Lane) (b : BitVec 130) : Lane :=
  { x with txScr := (scramble x.txScr b).1 }.putRaw (scramble x.txScr b).2

/-- Bits that a far-end loopback sends on, in words of 40 (R319, R320). -/
def Lane.sendBits (x : Lane) (bits : List Bool) : Lane :=
  let all := x.echo ++ bits
  let word (l : List Bool) : BitVec 40 := BitVec.ofNat 40 (l.zipIdx.foldl (fun v p => v + b2n p.1 * 2 ^ p.2) 0)
  let full := (List.range (all.length / 40)).map fun i => polar x.txInv (word ((all.drop (40 * i)).take 40))
  { x with echo := all.drop (40 * (all.length / 40)), words := if full.isEmpty then x.words else full }

/-- Powered lanes of a port in ascending logical order, of a set of logical lanes (R297). -/
def State.lineLanes (s : State) (p : Nat) (mask : BitVec 4) : List (Nat × Nat) :=
  (List.range 4).filterMap fun k =>
    if bit mask k then
      (((List.range 4).map fun i => 4 * p + i).find? fun l =>
        (s.lane l).state ≠ .disabled && (s.lane l).logical == k && !(s.lane l).dup).map fun l => (k, l)
    else none

/-- Put one control payload, which may name its lane, on some lanes of a port. -/
def State.putAll (s : State) (ls : List (Nat × Nat)) (f : Nat → BitVec 128) : State :=
  ls.foldl (fun t q => t.onLane q.2 fun x => x.put (mkBlk 2 (f q.1))) s

/-- Take the next data block of a queue: the two blocks of a frame one after the other. -/
def nextData : List TxItem → Option (BitVec 128 × List TxItem)
  | .half b :: l => some (b, l)
  | .frame f bad :: l =>
    let v := frameLine f bad
    some (v.extractLsb' 0 128, .half (v.extractLsb' 128 128) :: l)
  | _ => none

/-- A period of data: one block on every lane in ascending logical order, IDLE where no frame is left; a MARKER goes on
the lowest lane (R297, R303). -/
def State.putData (s : State) (first : Bool) (q : List TxItem) : List (Nat × Nat) → State × List TxItem
  | [] => (s, q)
  | (_, l) :: ls =>
    match first, q with
    | true, .marker m :: r => (s.onLane l fun x => x.put (mkBlk 2 (markerPay m))).putData false r ls
    | _, _ =>
      match nextData q with
      | some (b, r) => (s.onLane l fun x => x.put (mkBlk 1 b)).putData false r ls
      | none => (s.onLane l fun x => x.put (mkBlk 2 idlePay)).putData false q ls

/-- The lane's transmitter sends a PRBS, or returns what the lane receives (R319, R322). -/
def Lane.sendsTest (x : Lane) : Bool := x.state = .test && (x.cfg.genEn || x.cfg.loop = 3)

/-- Lanes that are locked but out of service, which carry ALIGN too, but for those whose transmitter sends a test
(R305, R320, R322). -/
def State.lockedOut (s : State) (p : Nat) : List (Nat × Nat) :=
  (s.lineLanes p (~~~(s.lport p).lanes.lineMask)).filter fun q => (s.lane q.2).blockLock && !(s.lane q.2).sendsTest

/-- The bits of the exit burst, `n` of its 1,024 UI left, that go in a block period: the pattern 0b1111_0000, the ones
first, over 1,024 UI; what is left of the last period is low (R313; DEDUCED, assumption log entry 74). -/
def burstBits (n : Nat) : BitVec 130 :=
  BitVec.ofNat 130 ((List.range (min 130 n)).foldl (fun v i => v + if (1024 - n + i) % 8 < 4 then 2 ^ i else 0) 0)

/-- What a block period puts on the lanes in service of a port (R297, R305, R312, R313). -/
def State.linePeriod (s : State) (p : Nat) : State :=
  let x := (s.lport p).lanes
  let ls := s.lineLanes p x.lineMask
  let next (t : State) (q : List TxItem) (m : BitVec 4) : State :=
    t.onLport p fun y => { y with lanes := { y.lanes with txq := q, lineMask := m } }
  match x.txq with
  | .align mask count :: q =>
    let all := ls ++ s.lockedOut p
    let t := s.putAll all fun k => alignPay k s.dev p mask count
    next (all.foldl (fun t q => t.onLane q.2 fun y => { y with txScr := scrReset q.1 }) t) q mask
  | .lane b :: q =>
    next (s.putAll ls fun _ => lanePay b) q (if b.op = 3 then x.lineMask else x.lineMask &&& b.mask)
  | .eios :: q => next (s.putAll ls fun _ => eiosPay) q x.lineMask
  | .burst n :: q =>
    next (ls.foldl (fun t q => t.onLane q.2 fun y =>
        (if n = 1024 then { y with gear := [] } else y).putRaw (burstBits n)) s)
      (if n ≤ 130 then q else .burst (n - 130) :: q) x.lineMask
  | q =>
    let (t, r) := s.putData true q ls
    next t r x.lineMask

/-- The TS block that a lane in training sends: its phase, what it is, the count of the image; the request of the lane
adaptation firmware is a free value (R303, R307, R309, assumption log entry 1). -/
def State.tsOwn (s : State) (l : Nat) : TsMsg :=
  let x := s.lane l
  let r := Config.deemphRequest l x.phase
  { phase := BitVec.ofNat 8 x.phase, logical := BitVec.ofNat 8 x.logical,
    lanes := BitVec.ofNat 8 (casLanes s.img.active (l / 4)), devid := BitVec.ofNat 3 s.dev,
    port := BitVec.ofNat 2 (l / 4), deemph := r.extractLsb' 0 4, mapped := BitVec.ofNat 4 x.cfg.deemph,
    reqVal := bit r 4, pass := decide (4 ≤ x.phase) }

/-! ### PRBS (R322, R323) -/

/-- Degree and second tap of a polynomial: PRBS7, PRBS15, PRBS31; code 3 is reserved and has none. -/
def prbsTaps (poly : Nat) : Nat × Nat :=
  match poly with
  | 0 => (7, 6)
  | 1 => (15, 14)
  | 2 => (31, 28)
  | _ => (0, 0)

/-- The next bit of a sequence after its last bits, newest first. -/
def prbsNext (poly : Nat) (reg : List Bool) : Bool :=
  xor (reg.getD ((prbsTaps poly).1 - 1) false) (reg.getD ((prbsTaps poly).2 - 1) false)

/-- The generator runs on by `n` bits: its register, and the bits sent, oldest first; INV inverts them. -/
def prbsRun (poly : Nat) (inv : Bool) : Nat → List Bool → List Bool × List Bool
  | 0, reg => (reg, [])
  | n + 1, reg =>
    let b := prbsNext poly reg
    let (r, out) := prbsRun poly inv n ((b :: reg).take 31)
    (r, xor b inv :: out)

/-- The checker takes one bit: before SYNC its register is loaded from what comes, and as many right predictions in a row
as twice the degree declare SYNC; in SYNC it runs on by itself, counts every bit and every mismatch, and drops SYNC and
reloads after 64 mismatches in 1,024 bits (R323). -/
def LaneCnt.check (poly : Nat) (inv : Bool) (k : LaneCnt) (raw : Bool) : LaneCnt :=
  let b := xor raw inv
  let deg := (prbsTaps poly).1
  let want := prbsNext poly k.chk
  if k.sync then
    let wrong := ((want != b) :: k.wrong).take 1024
    let k := { k with bits := (k.bits + 1) % 2 ^ 48, errors := if want != b then satInc 32 k.errors else k.errors }
    if 64 ≤ wrong.count true then { k with sync := false, chk := [], run := 0, wrong := [] }
    else { k with chk := (want :: k.chk).take deg, wrong := wrong }
  else
    let run := if deg ≤ k.chk.length && want == b then k.run + 1 else 0
    let k := { k with chk := (b :: k.chk).take deg, run := run }
    if deg ≠ 0 && 2 * deg ≤ run then { k with sync := true, run := 0, wrong := [] } else k

/-- The checker takes bits in their order. -/
def LaneCnt.checkAll (k : LaneCnt) (poly : Nat) (inv : Bool) (bits : List Bool) : LaneCnt :=
  bits.foldl (fun x b => x.check poly inv b) k

/-- A checker that is turned on or off starts anew; its counts stay until they are read (R323, R329). -/
def LaneCnt.chkReset (k : LaneCnt) : LaneCnt := { k with sync := false, chk := [], run := 0, wrong := [], ahead := 0 }

/-- `n` bits go by in a block period that no command has brought: in SYNC they are taken as predicted (DESIGN CHOICE,
assumption log entry 101). -/
def LaneCnt.passBits (k : LaneCnt) (poly : Nat) (n : Nat) : LaneCnt :=
  let m := n - k.ahead
  let k := { k with ahead := k.ahead - n }
  if k.sync then
    { k with bits := (k.bits + m) % 2 ^ 48, chk := ((prbsRun poly false m k.chk).1).take (prbsTaps poly).1,
             wrong := (List.replicate m false ++ k.wrong).take 1024 }
  else k

/-- Bits as one block of the line, the first one lowest. -/
def lineBits (l : List Bool) : BitVec 130 := BitVec.ofNat 130 (l.zipIdx.foldl (fun v p => v + b2n p.1 * 2 ^ p.2) 0)

/-- The 130 raw bits that a generator sends in a block period; injected errors invert the first ones (R322, R324). -/
def Lane.prbsBits (x : Lane) : List Bool :=
  (prbsRun x.cfg.poly x.cfg.inv 130 x.prbs).2.zipIdx.map fun p => xor p.1 (decide (p.2 < x.flips))

/-- A generator that is on sends them. -/
def Lane.putPrbs (x : Lane) : Lane :=
  { x with prbs := (prbsRun x.cfg.poly x.cfg.inv 130 x.prbs).1, flips := x.flips - 130 }.putRaw (lineBits x.prbsBits)

/-- A near-end loopback: the lane's receiver hears its own transmitter and not the pad (R319). -/
def Lane.near (x : Lane) : Bool := x.cfg.loop = 1 || x.cfg.loop = 2

/-- A block period of a lane under test: its generator sends, and its checker takes what a near-end loopback gives it, or
what comes in (R319, R322, R323). -/
def State.testPeriod (s : State) (l : Nat) : State :=
  let x := s.lane l
  let t := if x.cfg.genEn then s.onLane l Lane.putPrbs else s
  if !x.cfg.chkEn then t
  else if x.near then
    if x.cfg.genEn then
      t.onLcnt l fun k => k.checkAll x.cfg.poly x.cfg.inv (x.prbsBits.map fun b => xor b (xor x.txInv x.rxInv))
    else t
  else t.onLcnt l fun k => k.passBits x.cfg.poly 130

/-- Ticks of the phases of cold training that end with their work: EQUALISE, MARGIN, CALIBRATE, each at its bound (R307;
DESIGN CHOICE, assumption log entry 100). -/
def phaseTicks (phase : Nat) : Option Nat :=
  match phase with
  | 2 => some 72000
  | 3 => some 32000
  | 4 => some 32000
  | _ => none

/-- Cold training goes on to the next phase when the work of one is done (R307). -/
def State.phaseOn (s : State) (l : Nat) : State :=
  let x := s.lane l
  match phaseTicks x.phase with
  | some d =>
    if x.phaseFrom.toNat + d ≤ s.now.toNat then s.onLane l fun y => { y with phase := y.phase + 1, phaseFrom := s.now } else s
  | none => s

/-- What a lane out of service sends in a block period: TS in training, a test its bits, unless the block is HALTED or in
the fatal sequence (R64, R303, R307, R322, R402). -/
def State.lanePeriod (s : State) (l : Nat) : State :=
  match (s.lane l).state with
  | .detect | .training | .retraining =>
    let t := s.phaseOn l
    t.onLane l fun y => y.put (mkBlk 2 (tsPay (t.tsOwn l)))
  | .test => if s.boot.mode = .halted || s.fatal.inSeq then s else s.testPeriod l
  | _ => s

/-- The descrambler of a lane in service passes a block in each block period, but for those that commands have brought
and in electrical idle (R304, R312). -/
def State.rxPeriod (s : State) (p l : Nat) : State :=
  let x := s.lane l
  if x.rxAhead ≠ 0 then s.onLane l fun y => { y with rxAhead := y.rxAhead - 1 }
  else if bit (s.lport p).lanes.rxMask x.logical && x.blockLock && !(s.lport p).lanes.idleRx &&
      (x.state = .inService || x.state = .idle) then
    s.onLane l fun y => { y with rxScr := (scrKey y.rxScr).1 }
  else s

/-- The exit ALIGN goes again every 64 block periods until the partner's has come on every lane (R313). -/
def PortLanes.exitTick (x : PortLanes) : PortLanes :=
  if !x.waking then x
  else if 63 ≤ x.exitPer then { x.control (.align x.txMask x.alignCnt) with exitPer := 0 }
  else { x with exitPer := x.exitPer + 1 }

/-- The physical lanes on which a port's line puts its block in this period (R297, R305). -/
def State.lineUses (s : State) (p : Nat) : List Nat :=
  let x := (s.lport p).lanes
  let out : List (Nat × Nat) := match x.txq with
    | .align _ _ :: _ => s.lockedOut p
    | _ => []
  if x.idleTx && !x.txq.contains .eios then [] else (s.lineLanes p x.lineMask ++ out).map Prod.snd

/-- A block period of a port: one block on each lane. A transmitter in electrical idle puts nothing on its lanes; of a port
that is not in use only a lane under test sends (R297, R302, R312, R321, R322). -/
def State.portPeriod (s : State) (p : Nat) : State :=
  let ls := (List.range 4).map fun i => 4 * p + i
  if (s.lport p).state = .disabled then
    ls.foldl (fun t l => if (t.lane l).state = .test then t.lanePeriod l else t) s
  else
    let s := s.onLport p fun y => { y with lanes := y.lanes.exitTick }
    let used := s.lineUses p
    let s := ls.foldl (fun t l => if used.contains l then t.rxPeriod p l else (t.rxPeriod p l).lanePeriod l) s
    if (s.lport p).lanes.idleTx && !(s.lport p).lanes.txq.contains .eios then s else s.linePeriod p

/-! ### Receive (R306, R319) -/

/-- Block lock is reached: 64 consecutive valid headers. -/
def hdrsLock (l : List Bool) : Bool := l.length == 64 && l.all id

/-- Block lock is lost: 8 consecutive invalid headers, or 16 among the last 64. -/
def hdrsLost (l : List Bool) : Bool :=
  ((l.take 8).length == 8 && (l.take 8).all fun b => !b) || 16 ≤ (l.filter fun b => !b).length

/-! ### Deskew and frames (R297, R298) -/

/-- Blocks that a lane may run ahead of the others: the 32 words of its FIFO (R57). -/
def deskewDepth : Nat := 9

/-- One stripe of blocks in ascending logical order: two data blocks make a frame, ALIGN is a frame boundary. -/
def PortLanes.takeStripe (x : PortLanes) (l : List RxItem) : PortLanes :=
  l.foldl (fun y i => match i with
    | .data b => match y.rxHalf with
      | none => { y with rxHalf := some b }
      | some a => { y with rxHalf := none, rxFrames := (y.rxFrames ++ [b ++ a]).drop (y.rxFrames.length + 1 - 64) }
    | .align => { y with rxHalf := none }
    | .ctl => y) x

/-- The lanes of a receive stripe go on together: each gives one block; a lane that has not come to an ALIGN that another
one has gives up what precedes it. -/
def State.deskew (s : State) (p : Nat) : Nat → State
  | 0 => s
  | k + 1 =>
    let ls := (s.lineLanes p (s.lport p).lanes.rxMask).map Prod.snd
    let heads := ls.filterMap fun l => (s.lane l).rxq.head?
    let pop (l : Nat) (t : State) : State := t.onLane l fun y => { y with rxq := y.rxq.drop 1 }
    if ls.isEmpty || heads.length < ls.length then s
    else if heads.contains .align && heads.any fun h => h != .align then
      State.deskew (ls.foldl (fun t l => if (s.lane l).rxq.head? = some .align then t else pop l t) s) p k
    else
      State.deskew ((ls.foldl (fun t l => pop l t) s).onLport p fun y =>
        { y with lanes := y.lanes.takeStripe heads }) p k

/-- A lane of the receive stripe has a block for the deskew. -/
def State.rxItem (s : State) (l : Nat) (i : RxItem) : State :=
  let p := l / 4
  if bit (s.lport p).lanes.rxMask (s.lane l).logical then
    let t := s.onLane l fun y => { y with rxq := (y.rxq ++ [i]).drop (y.rxq.length + 1 - deskewDepth) }
    t.deskew p (4 * deskewDepth)
  else s

/-- A descrambled block as the deskew sees it. -/
def rxItemOf (b : BitVec 130) : RxItem :=
  if blkHdr b = 1 then .data (blkPay b) else if blkHdr b = 2 && fld (blkPay b) 0 8 == 0x2D then .align else .ctl

/-- A block in the receive path: its header counts; in block lock it is descrambled, ALIGN resets the descrambler, an
invalid block is discarded and counted; a far-end loopback sends its bits back (R300, R304, R306, R319). -/
def State.lineIn (s : State) (l : Nat) (raw : BitVec 130) : State :=
  let x := s.lane l
  let b := if x.rxInv then ~~~raw else raw
  let s := s.onLane l fun y => { y with hdrs := (syncOk (blkHdr b) :: y.hdrs).take 64, rxAhead := y.rxAhead + 1 }
  let s := if x.cfg.loop = 3 then s.onLane l fun y => y.sendBits ((List.range 130).map b.getLsbD) else s
  if !x.blockLock then s
  else
    let d := (scramble x.rxScr b).2
    let s := s.onLane l fun y =>
      { y with rxScr := if blkOk d && rxItemOf d == .align then scrReset y.logical else (scramble x.rxScr b).1 }
    if blkOk d then s.rxItem l (rxItemOf d)
    else (s.onLcnt l fun k => { k with syncErr := satInc 16 k.syncErr }).rxItem l .ctl

/-- A block on the pad of a lane; a near-end loopback ignores the pad (R319). -/
def State.rxBlock (s : State) (l : Nat) (raw : BitVec 130) : State := if (s.lane l).near then s else s.lineIn l raw

end Sys2Proof.Machine
end

