-- ==== Sys2Proof/Machine/Sha.lean ====
section
/-!
DEFINITION. SHA-384, which R101, R113 and R294 name and FIPS 180-4 defines (PRESUMED, assumption log entry 92).
-/

namespace Sys2Proof.Machine

/-- The constants of a round. -/
def shaK0 : List (BitVec 64) :=
  [0x428a2f98d728ae22, 0x7137449123ef65cd, 0xb5c0fbcfec4d3b2f, 0xe9b5dba58189dbbc, 0x3956c25bf348b538,
   0x59f111f1b605d019, 0x923f82a4af194f9b, 0xab1c5ed5da6d8118, 0xd807aa98a3030242, 0x12835b0145706fbe,
   0x243185be4ee4b28c, 0x550c7dc3d5ffb4e2, 0x72be5d74f27b896f, 0x80deb1fe3b1696b1, 0x9bdc06a725c71235,
   0xc19bf174cf692694, 0xe49b69c19ef14ad2, 0xefbe4786384f25e3, 0x0fc19dc68b8cd5b5, 0x240ca1cc77ac9c65,
   0x2de92c6f592b0275, 0x4a7484aa6ea6e483, 0x5cb0a9dcbd41fbd4, 0x76f988da831153b5, 0x983e5152ee66dfab,
   0xa831c66d2db43210, 0xb00327c898fb213f, 0xbf597fc7beef0ee4, 0xc6e00bf33da88fc2, 0xd5a79147930aa725,
   0x06ca6351e003826f, 0x142929670a0e6e70, 0x27b70a8546d22ffc, 0x2e1b21385c26c926, 0x4d2c6dfc5ac42aed,
   0x53380d139d95b3df, 0x650a73548baf63de, 0x766a0abb3c77b2a8, 0x81c2c92e47edaee6, 0x92722c851482353b]

/-- The constants of the last 40 rounds. -/
def shaK1 : List (BitVec 64) :=
  [0xa2bfe8a14cf10364, 0xa81a664bbc423001, 0xc24b8b70d0f89791, 0xc76c51a30654be30, 0xd192e819d6ef5218,
   0xd69906245565a910, 0xf40e35855771202a, 0x106aa07032bbd1b8, 0x19a4c116b8d2d0c8, 0x1e376c085141ab53,
   0x2748774cdf8eeb99, 0x34b0bcb5e19b48a8, 0x391c0cb3c5c95a63, 0x4ed8aa4ae3418acb, 0x5b9cca4f7763e373,
   0x682e6ff3d6b2b8a3, 0x748f82ee5defb2fc, 0x78a5636f43172f60, 0x84c87814a1f0ab72, 0x8cc702081a6439ec,
   0x90befffa23631e28, 0xa4506cebde82bde9, 0xbef9a3f7b2c67915, 0xc67178f2e372532b, 0xca273eceea26619c,
   0xd186b8c721c0c207, 0xeada7dd6cde0eb1e, 0xf57d4f7fee6ed178, 0x06f067aa72176fba, 0x0a637dc5a2c898a6,
   0x113f9804bef90dae, 0x1b710b35131c471b, 0x28db77f523047d84, 0x32caab7b40c72493, 0x3c9ebe0a15c9bebc,
   0x431d67c49c100d4c, 0x4cc5d4becb3e42b6, 0x597f299cfc657e2a, 0x5fcb6fab3ad6faec, 0x6c44198c4a475817]

/-- The initial hash value of SHA-384. -/
def shaInit : List (BitVec 64) :=
  [0xcbbb9d5dc1059ed8, 0x629a292a367cd507, 0x9159015a3070dd17, 0x152fecd8f70e5939, 0x67332667ffc00b31,
   0x8eb44a8768581511, 0xdb0c2e0d64f98fa7, 0x47b5481dbefa4fa4]

/-- The working variables of the compression, `a` to `h`. -/
structure ShaVars where
  a : BitVec 64
  b : BitVec 64
  c : BitVec 64
  d : BitVec 64
  e : BitVec 64
  f : BitVec 64
  g : BitVec 64
  h : BitVec 64
  deriving DecidableEq, Repr

def ShaVars.ofList (l : List (BitVec 64)) : ShaVars :=
  { a := l.getD 0 0, b := l.getD 1 0, c := l.getD 2 0, d := l.getD 3 0, e := l.getD 4 0, f := l.getD 5 0,
    g := l.getD 6 0, h := l.getD 7 0 }

def shaBig0 (x : BitVec 64) : BitVec 64 := x.rotateRight 28 ^^^ x.rotateRight 34 ^^^ x.rotateRight 39
def shaBig1 (x : BitVec 64) : BitVec 64 := x.rotateRight 14 ^^^ x.rotateRight 18 ^^^ x.rotateRight 41
def shaSmall0 (x : BitVec 64) : BitVec 64 := x.rotateRight 1 ^^^ x.rotateRight 8 ^^^ x >>> 7
def shaSmall1 (x : BitVec 64) : BitVec 64 := x.rotateRight 19 ^^^ x.rotateRight 61 ^^^ x >>> 6

/-- One round with its message word and constant. -/
def ShaVars.round (v : ShaVars) (p : BitVec 64 × BitVec 64) : ShaVars :=
  let t1 := v.h + shaBig1 v.e + ((v.e &&& v.f) ^^^ (~~~ v.e &&& v.g)) + p.2 + p.1
  let t2 := shaBig0 v.a + ((v.a &&& v.b) ^^^ (v.a &&& v.c) ^^^ (v.b &&& v.c))
  { a := t1 + t2, b := v.a, c := v.b, d := v.c, e := v.d + t1, f := v.e, g := v.f, h := v.g }

/-- The message schedule goes on by `n` words; its last 16 words are kept, newest first. -/
def shaExtend : Nat → List (BitVec 64) → List (BitVec 64) → List (BitVec 64)
  | 0, _, acc => acc.reverse
  | n + 1, w, acc =>
    let x := shaSmall1 (w.getD 1 0) + w.getD 6 0 + shaSmall0 (w.getD 14 0) + w.getD 15 0
    shaExtend n (x :: w.take 15) (x :: acc)

/-- The 80 words of the schedule of a block of 16. -/
def shaSchedule (block : List (BitVec 64)) : List (BitVec 64) := block ++ shaExtend 64 block.reverse []

/-- The hash value after one more block. -/
def shaBlock (v : ShaVars) (block : List (BitVec 64)) : ShaVars :=
  let w := ((shaSchedule block).zip (shaK0 ++ shaK1)).foldl ShaVars.round v
  { a := v.a + w.a, b := v.b + w.b, c := v.c + w.c, d := v.d + w.d, e := v.e + w.e, f := v.f + w.f, g := v.g + w.g,
    h := v.h + w.h }

/-- A big-endian number of bytes. -/
def beNat (l : List (BitVec 8)) : Nat := l.foldl (fun n b => 256 * n + b.toNat) 0

/-- The padded message: a bit of one, zeros, and the length in bits. -/
def shaPad (l : List (BitVec 8)) : List (BitVec 8) :=
  l ++ [0x80] ++ List.replicate ((239 - l.length % 128) % 128) 0 ++ bytesBE 16 (BitVec.ofNat 128 (8 * l.length))

/-- `n` groups of `k` elements. -/
def groupsOf {α : Type} (k : Nat) : Nat → List α → List (List α)
  | 0, _ => []
  | n + 1, l => l.take k :: groupsOf k n (l.drop k)

/-- The message blocks. -/
def shaBlocks (l : List (BitVec 8)) : List (List (BitVec 64)) :=
  (groupsOf 128 ((shaPad l).length / 128) (shaPad l)).map fun b => (groupsOf 8 16 b).map fun w => BitVec.ofNat 64 (beNat w)

/-- SHA-384 of a byte string, its first byte in the most significant bits. -/
@[irreducible] def sha384 (l : List (BitVec 8)) : BitVec 384 :=
  let v := (shaBlocks l).foldl shaBlock (ShaVars.ofList shaInit)
  v.a ++ v.b ++ v.c ++ v.d ++ v.e ++ v.f

end Sys2Proof.Machine
end

