-- ==== Sys2Proof/Machine/Save.lean ====
section
/-!
DEFINITION. The bytes of a save image and its digest (R294).
-/

namespace Sys2Proof.Machine

/-- A number of `n` bytes of zeros. -/
def zeros (n : Nat) : List (BitVec 8) := List.replicate n 0

/-- The 128 header bytes of a save image (R294). -/
def saveHeader (m : SaveImage) : List (BitVec 8) :=
  bytesLE 4 m.magic ++ bytesLE 2 m.format ++ [m.mode, m.flags] ++ bytesLE 2 m.hwver ++ bytesLE 2 m.slice ++
    bytesLE 2 m.units ++ bytesLE 2 m.nctx ++ bytesLE 2 m.ngrp ++ bytesLE 1 m.devid ++ zeros 1 ++ bytesLE 4 m.length ++
    bytesLE 8 m.freezeTick ++ bytesLE 8 m.shares ++ [m.ceiling, m.profile] ++ bytesLE 2 m.hwm ++ zeros 20 ++
    bytesLE 48 m.digest ++ zeros 16

/-- The 64 bytes of the counter block (R294). -/
def saveCounters (m : SaveImage) : List (BitVec 8) :=
  bytesLE 8 m.cpl ++ bytesLE 8 m.dl ++ bytesLE 4 m.merged ++ bytesLE 4 m.wdrawn ++ recsLE 4 8 m.refs ++ zeros 8

/-- The 176 bytes of a context record (R294). -/
def saveCtxBytes (c : SaveCtx) : List (BitVec 8) :=
  bytesLE 8 c.vbase ++ bytesLE 4 c.dlvCfg ++ bytesLE 4 c.flags ++ bytesLE 8 c.cnt0 ++ bytesLE 8 c.cnt1 ++
    bytesLE 8 c.cnt2 ++ zeros 8 ++ recsLE 8 16 c.stack

/-- The 136 bytes of a group record (R294). -/
def saveGrpBytes (g : SaveGrp) : List (BitVec 8) :=
  [g.limit, g.count, g.rrptr, g.flags] ++ zeros 4 ++ recsLE 2 64 g.members

/-- The record of slice-local source `k`: one that is not listed is all zero. -/
def saveSrcAt (m : SaveImage) (k : Nat) : SaveSrc :=
  ((m.srcs.find? fun r => r.1.toNat == k).map Prod.snd).getD { entry := 0, age := 0, link := 0 }

/-- The 16 bytes of a source record (R294). -/
def saveSrcBytes (r : SaveSrc) : List (BitVec 8) := bytesLE 8 r.entry ++ bytesLE 4 r.age ++ bytesLE 4 r.link

/-- The byte string of a save image (R294). -/
def saveBytes (m : SaveImage) : List (BitVec 8) :=
  saveHeader m ++ saveCounters m ++ m.ctxs.flatMap saveCtxBytes ++ m.grps.flatMap saveGrpBytes ++
    (List.range (512 * m.units.toNat)).flatMap fun k => saveSrcBytes (saveSrcAt m k)

/-- The digest over a save image, its field taken as zero (R294). -/
def saveDigest (m : SaveImage) : BitVec 384 := sha384 (saveBytes { m with digest := 0 })

end Sys2Proof.Machine
end

