-- ==== Sys2Proof/Machine/Arrays.lean ====
section
/-!
DEFINITION. The bank stripes of the SSA and the PLA, the Queue Head Table and the link store: what an access finds in
their words, and what is done about it (R144, R160 to R170, R175 to R179).
-/

namespace Sys2Proof.Machine

/-! ### Owner and priority (R175, R177) -/

/-- The owner of a source on this device: a context, 1,024 + a group, or none for a remote route. -/
def State.ownerOf (s : State) (e : Entry) : Option Nat :=
  if e.rmode then some (1024 + routeGrp e.route)
  else if routeDev e.route == s.dev then some (routeCtx e.route) else none

/-- Effective priority: the ceiling of the owner slice holds for a promoted source. -/
def State.effPrio (s : State) (n : Nat) : Nat :=
  let e := s.entry n
  if (s.plaOf n).promoted then min e.prio.toNat (s.slc e.slice.toNat).info.ceiling else e.prio.toNat

/-! ### The bank stripe (R160 to R167) -/

/-- The data bank position of a source (R160). -/
def bankPos (n : Nat) : Nat := if n % 32 < (n / 32) % 33 then n % 32 else n % 32 + 1

/-- A rebuild into the spare runs; in DEGRADED it continues (R166, R167). -/
def Stripe.rebuildRuns (x : Stripe) : Bool := (x.mode = .rebuilding || x.mode = .degraded) && x.rebuildRow < 65536

/-- Physical bank of a position in a row: the spare once the row's word is rebuilt there (R160, R166). -/
def Stripe.bankOf (x : Stripe) (row pos : Nat) : Nat :=
  if row < x.rebuildRow && x.failed1 == pos then 33 else pos

/-- The position that a bank holds in a row; a failed bank, and the spare while it is not used, hold none (R160, R166).
-/
def Stripe.posOf (x : Stripe) (row bank : Nat) : Option Nat :=
  if bank = 33 then (if row < x.rebuildRow && x.failed1 < 33 then some x.failed1 else none)
  else if bank = x.failed1 || bank = x.failed2 || 33 < bank then none else some bank

/-- A bank has failed: it is not read any more (R166, R167). -/
def Stripe.gone (x : Stripe) (bank : Nat) : Bool := bank == x.failed1 || bank == x.failed2

/-- Check bits of a stored entry: 8 bits of a SEC-DED code (R144, R146). -/
def checkBits (pla : Bool) (w : BitVec 64) : BitVec 8 := if pla then Config.plaCheck w else Config.ssaCheck w

/-- The data bits of a source's word. -/
def State.dataWord (s : State) (pla : Bool) (n : Nat) : BitVec 64 :=
  if pla then (s.plaOf n).toWord else (s.entry n).toWord

/-- The stored word of a position of a row, data and check bits: the entry of a data index, or the exclusive-or of the
row's 32 words at the parity position (R160, R161). -/
def State.posWord (s : State) (pla : Bool) (row pos : Nat) : BitVec 64 × BitVec 8 :=
  let p := row % 33
  if pos = p then
    (if pla then SMap.get 0 s.arr.plaPar row else SMap.get (baseParity s.arr row) s.arr.ssaPar row,
     (List.range 32).foldl (fun c d => c ^^^ checkBits pla (s.dataWord pla (32 * row + d))) 0)
  else
    let w := s.dataWord pla (32 * row + if pos < p then pos else pos - 1)
    (w, checkBits pla w)

/-- Change one stripe: the SSA's or the PLA's. -/
def State.onStripe (s : State) (pla : Bool) (f : Stripe → Stripe) : State :=
  s.onStripes fun x => if pla then { x with pla := f x.pla } else { x with ssa := f x.ssa }

def State.stripe (s : State) (pla : Bool) : Stripe := if pla then s.stripes.pla else s.stripes.ssa

/-- The stored word of one of the 34 banks in a row, of a bank in use (R160). -/
def State.bankWord (s : State) (pla : Bool) (bank row : Nat) : Option (BitVec 64 × BitVec 8) :=
  ((s.stripe pla).posOf row bank).map (s.posWord pla row)

/-- A bank is declared failed: the rebuild into the spare begins, or the array is DEGRADED when it has lost
its spare or is rebuilding (R165, R167). `why` is DETAIL of class 0x05. -/
def State.bankFail (s : State) (pla : Bool) (bank row why : Nat) : State :=
  let x := s.stripe pla
  if bank == x.failed1 || bank == x.failed2 then s
  else
    match x.mode with
    | .normal =>
      (s.onStripe pla fun y => { y with mode := .rebuilding, failed1 := bank, rebuildRow := 0 }).fail
        0x05 none 6 (arrObj (b2n pla) bank row) why
    | _ =>
      (s.onStripe pla fun y => { y with mode := .degraded,
                                        failed2 := if y.failed2 = 63 then bank else y.failed2 }).fail
        0x06 none 6 (arrObj (b2n pla) bank row) 0

/-- A correctable word: corrected, CE counted, and the bank failed at 32 distinct rows (R163, R165). -/
def State.ceWord (s : State) (pla : Bool) (bank row : Nat) : State :=
  let t := (s.onStripe pla fun y =>
    { y with ce := satInc 16 y.ce,
             ceRows := if y.ceRows.contains (bank, row) then y.ceRows else y.ceRows ++ [(bank, row)] }).fail
    0x04 none 6 (arrObj (b2n pla) bank row) 0
  if 32 ≤ ((t.stripe pla).ceRows.filter fun p => p.1 == bank).length then t.bankFail pla bank row 2 else t

/-- A bank of the row is served only by reconstruction (R164, R167). -/
def Stripe.reconstructs (x : Stripe) : Bool := x.mode = .degraded || x.mode = .rebuilding

/-- An uncorrectable word: rebuilt from its row, UE counted, the bank failed at a second row; the class
array-uncorrectable when the row has lost more than it can give back (R163 to R165, R167). -/
def State.ueWord (s : State) (pla : Bool) (bank row : Nat) : State :=
  let x := s.stripe pla
  if x.mode = .degraded || (x.mode = .rebuilding && x.rebuildRow ≤ row && bank ≠ x.failed1) then
    s.fail 0x07 none 6 (arrObj (b2n pla) bank row) 2
  else
    let t := (s.onStripe pla fun y =>
      { y with ue := satInc 16 y.ue,
               ueRows := if y.ueRows.contains (bank, row) then y.ueRows else y.ueRows ++ [(bank, row)] }).fail
      0x04 none 6 (arrObj (b2n pla) bank row) 1
    if 2 ≤ ((t.stripe pla).ueRows.filter fun p => p.1 == bank).length then t.bankFail pla bank row 1 else t

/-- What an access to a bank's word of a row finds, and does about it; the second part says whether the word
can be used. The position of a failed bank is served without the bank (R166, R167). -/
def State.wordRead (s : State) (pla : Bool) (bank row : Nat) (w : WordState) : State × Bool :=
  match w with
  | .clean => (s, true)
  | .correctable => if (s.stripe pla).gone bank then (s, true) else (s.ceWord pla bank row, true)
  | .uncorrectable =>
    if (s.stripe pla).gone bank then (s, true)
    else
      let t := s.ueWord pla bank row
      (t, !(t.fatal.inSeq && !s.fatal.inSeq))
  | .rowLost k => (s.fail 0x07 none 6 (arrObj (b2n pla) bank row) k.toNat, false)
  | .rowAddr => (s.bankFail pla bank row 3, true)

/-! ### The Queue Head Table and the link store (R176, R179) -/

/-- The queues of an owner. -/
def State.ownerQ (s : State) (o : Nat) : OwnerQ := SMap.get {} s.weir.queues o

/-- The queue of an owner at a priority, head first. -/
def State.queue (s : State) (o p : Nat) : List Nat := SMap.get [] (s.ownerQ o).qs p

/-- Replace the queue of an owner at a priority. -/
def State.setQueue (s : State) (o p : Nat) (q : List Nat) : State :=
  s.onWeir fun w =>
    { w with queues := SMap.upd {} w.queues o fun x => { x with qs := SMap.set [] x.qs p q } }

/-- The link store word of a source (R179). -/
def State.linkOf (s : State) (n : Nat) : Link := SMap.get {} s.weir.links n

def State.onLinkOf (s : State) (n : Nat) (f : Link → Link) : State :=
  s.onWeir fun w => { w with links := SMap.upd {} w.links n f }

/-- Since an instant no visit is made. -/
def Weir.pause (w : Weir) (now : Tick) : Weir :=
  { w with sleptAt := some (match w.sleptAt with
      | some c => if c ≤ now then c else now
      | none => now) }

/-- The walk of a queue over NEXT from a head: its sources, if each is LINKED at the priority and the walk ends at the
tail (R176). -/
def State.walk (s : State) (prio tail : Nat) : Nat → Nat → Option (List Nat)
  | 0, _ => none
  | k + 1, n =>
    let p := s.plaOf n
    if !p.linked || (s.linkOf n).lprio ≠ prio then none
    else if n = tail then (if p.next.toNat = n then some [n] else none)
    else (s.walk prio tail k p.next.toNat).map fun l => n :: l

/-- The queue that a head and a tail name, walked over at most every source. -/
def State.walkQueue (s : State) (prio head tail : Nat) : Option (List Nat) := s.walk prio tail 2097152 head

/-- The Queue Head Table word of an owner at a priority: supplied by the other copy, by the copy whose walk succeeds, or
by neither (R176). The table's State is the copy kept. -/
def State.headRead (s : State) (o p : Nat) (w : HeadWord) : State × Bool :=
  let fixed (t : State) : State × Bool := (t.fail 0x04 none 6 (arrObj 2 0 o) 0, true)
  match w with
  | .clean => (s, true)
  | .otherCopy => fixed s
  | .disagree h t =>
    let q := s.queue o p
    if (s.walkQueue p (q.headD 0) (q.getLastD 0)).isSome then fixed s
    else
      match s.walkQueue p h.toNat t.toNat with
      | some l => fixed (s.setQueue o p l)
      | none => (s.fail 0x07 none 6 (arrObj 2 0 o) 1, false)
  | .lost => (s.fail 0x07 none 6 (arrObj 2 0 o) 1, false)

/-- A link store word clean in neither copy: the store is derived again; the visits since `due` wait (R179). -/
def State.linkRead (s : State) (n : Nat) (lost : Bool) (due : Tick) : State :=
  if lost then (s.onWeir fun w => { w.pause due with linkRebuild := true }).failSrc 0x0A n 0 else s

/-! ### Errors that stand in the arrays until an access finds them (R163, R164, R176, R179) -/

/-- The sources whose links an update of a source writes too: its neighbours in its queue, or the ends of the queue that
its entry names. -/
def State.neighbours (s : State) (n : Nat) : List Nat :=
  match s.ownerOf (s.entry n) with
  | none => []
  | some o =>
    if (s.plaOf n).linked then
      let q := s.queue o (s.linkOf n).lprio
      (q.takeWhile (· ≠ n)).getLast?.toList ++ ((q.dropWhile (· ≠ n)).drop 1).head?.toList
    else (s.queue o (s.effPrio n)).head?.toList ++ (s.queue o (s.effPrio n)).getLast?.toList

/-- An update of a source uses the word that an error stands in. -/
def State.meets (s : State) (n : Nat) : Upset → Bool
  | .word _ m _ => m.toNat == n
  | .head o p _ => s.ownerOf (s.entry n) == some o.toNat && (p.toNat == s.effPrio n || p.toNat == (s.linkOf n).lprio)
  | .link m => m.toNat == n || (s.neighbours n).contains m.toNat
  | .map _ => false

/-- Another word of the same row and array stands uncorrectable (R164). -/
def State.rowMates (s : State) (pla : Bool) (n : Nat) : Bool :=
  s.upsets.any fun u => match u with
    | .word p m .uncorrectable => p == pla && m.toNat != n && rowOf m.toNat == rowOf n
    | _ => false

/-- An access finds one error, and what is done about it; the second part says whether every word can be used. -/
def State.findUpset (a : State × Bool) (u : Upset) : State × Bool :=
  match u with
  | .word pla n w =>
    let row := rowOf n.toNat
    let w := if w = .uncorrectable && a.1.rowMates pla n.toNat then .rowLost 2 else w
    let r := a.1.wordRead pla ((a.1.stripe pla).bankOf row (bankPos n.toNat)) row w
    (r.1, a.2 && r.2)
  | .head o p w =>
    let r := a.1.headRead o.toNat p.toNat w
    (r.1, a.2 && r.2)
  | .link n => (a.1.linkRead n.toNat true (a.1.now - 1000), a.2)
  | .map _ => a

/-- Accesses find the errors of a kind, each once. -/
def State.finds (s : State) (p : Upset → Bool) : State × Bool :=
  (s.upsets.filter p).foldl State.findUpset ({ s with upsets := s.upsets.filter fun u => !p u }, true)

/-- Work that uses words of the arrays: what stands in them is found first, and words that cannot be recovered are neither
used nor written (R163, R164). -/
def State.usingWords (s : State) (p : Upset → Bool) (f : State → State) : State :=
  let r := s.finds p
  if r.2 then f r.1 else r.1

end Sys2Proof.Machine
end

