-- ==== Sys2Proof/Machine/Source.lean ====
section
/-!
DEFINITION. Queues and links, arming of the timing wheel, and the transition table of R149 with what its
rows reach: presentations withdrawn, FORWARDED sources and proxies.
-/

namespace Sys2Proof.Machine

/-! ### Owner, priority, rank (R175, R177, R180) -/

/-- Rank of a candidate. -/
def State.rankOf (s : State) (n : Nat) : Nat := if (s.entry n).sov then 0 else s.effPrio n + 1

/-! ### The Queue Head Table and the link store -/

/-- Insert a number into an ascending list without repeats. -/
def insertAsc (n : Nat) : List Nat → List Nat
  | [] => [n]
  | m :: l => if n < m then n :: m :: l else if n = m then m :: l else m :: insertAsc n l

/-- Link or unlink a sovereign source at an owner: bit `n` of its sovereign map (R178). A proxy of a sovereign source has
no bit in it, and is kept in a list beside it (R248, R356; DESIGN CHOICE, assumption log entry 85). -/
def State.setSovBit (s : State) (o n : Nat) (b : Bool) : State :=
  s.onWeir fun w =>
    { w with queues := SMap.upd {} w.queues o fun x =>
        if n < 16 then
          { x with sov := if b then x.sov ||| BitVec.ofNat 16 (2 ^ n)
                          else x.sov &&& ~~~ BitVec.ofNat 16 (2 ^ n) }
        else { x with sovPx := if b then insertAsc n x.sovPx else x.sovPx.filter (· ≠ n) } }

/-- Write LINKED and NEXT of a source. -/
def State.setLink (s : State) (n : Nat) (linked : Bool) (next : Nat) : State :=
  s.onPla n fun p => { p with linked := linked, next := BitVec.ofNat 21 next }

/-- Write NEXT of a linked source. -/
def State.setNext (s : State) (n next : Nat) : State :=
  s.onPla n fun p => { p with next := BitVec.ofNat 21 next }

/-! ### FORWARDED entries (R353 to R355) -/

/-- The home's record of a FORWARDED entry. -/
def State.fwd (s : State) (n : Nat) : Option Fwd := SMap.get none s.cas.fwds n

def State.setFwd (s : State) (n : Nat) (f : Option Fwd) : State :=
  s.onCas fun c => { c with fwds := SMap.set none c.fwds n f }

/-- FLAGS of a PRET frame (R336). -/
def pretFlags (p : Pla) (firing level : Bool) (st : SState) : BitVec 8 :=
  BitVec.ofNat 8 (b2n p.promoted + 2 * b2n p.missed + 4 * b2n firing + 8 * b2n level + 16 * st.code)

/-- A proxy by its source number here. -/
def State.proxy (s : State) (n : Nat) : Proxy := SMap.get {} s.cas.proxies n

def State.onProxy (s : State) (n : Nat) (f : Proxy → Proxy) : State :=
  s.onCas fun c => { c with proxies := SMap.upd {} c.proxies n f }

/-- The source here that a proxy of a global source has. -/
def State.findProxy (s : State) (gsrc : Nat) : Option Nat :=
  (s.cas.proxies.find? fun p => p.2.live && p.2.gsrc == gsrc).map Prod.fst

/-- The level a level source has now: a wired line's last captured level, a proxy's copy (R119, R357). -/
def State.levelOf (s : State) (n : Nat) : Bool :=
  if (s.proxy n).live then (s.proxy n).level else (s.line n).level

/-- A fixed route to another device (R204). -/
def State.remoteRoute (s : State) (rmode : Bool) (route : BitVec 13) : Bool :=
  !rmode && routeDev route != s.dev

/-- The entry becomes FORWARDED and its proxy is asked for (R354). -/
def State.openProxy (s : State) (n : Nat) : State :=
  let e := s.entry n
  let pl := s.plaOf n
  let firing := e.state = .pending
  let t := (s.setEntry n { e with state := .forwarded }).setFwd n
    (some { dev := routeDev e.route, proxy := none, grp := none,
            firing := if firing then some pl.stamp else none, held := none, closing := false })
  t.sendE2e (routeDev e.route) e.urgent
    (.proxy 1 (gsrcOf s.dev n) e.toWord pl.stamp (pretFlags pl firing (s.levelOf n) .idle) 0)

/-- Tail link in the queue of the owner and priority that the entry holds (R149, R178); a fixed route to
another device has no queue here and goes to a proxy (R354). -/
def State.tailLink (s : State) (n : Nat) : State :=
  let e := s.entry n
  match s.ownerOf e with
  | none => s.openProxy n
  | some o =>
    if e.sov then (s.setSovBit o n true).setLink n true n
    else
      let p := s.effPrio n
      let q := s.queue o p
      let t := (s.setQueue o p (q ++ [n])).setLink n true n
      let t := match q.getLast? with
        | some l => t.setNext l n
        | none => t
      t.onLinkOf n fun k => { k with lprio := p }

/-- Head link in the queue of the owner and priority that the entry holds (R149, R178). -/
def State.headLink (s : State) (n : Nat) : State :=
  let e := s.entry n
  match s.ownerOf e with
  | none => s.openProxy n
  | some o =>
    if e.sov then (s.setSovBit o n true).setLink n true n
    else
      let p := s.effPrio n
      let q := s.queue o p
      ((s.setQueue o p (n :: q)).setLink n true (q.headD n)).onLinkOf n fun k => { k with lprio := p }

/-- Unlink a source by the priority of its link store word (R149, R179, R193). -/
def State.unlink (s : State) (n : Nat) : State :=
  let e := s.entry n
  if (s.plaOf n).linked then
    match s.ownerOf e with
    | none => s.setLink n false 0
    | some o =>
      if e.sov then (s.setSovBit o n false).setLink n false 0
      else
        let p := (s.linkOf n).lprio
        let q := s.queue o p
        let before := q.takeWhile fun x => x ≠ n
        let after := (q.dropWhile fun x => x ≠ n).drop 1
        let t := (s.setQueue o p (before ++ after)).setLink n false 0
        let t := match before.getLast? with
          | some l => t.setNext l (after.headD l)
          | none => t
        t.onLinkOf n fun k => { k with lprio := 0 }
  else s

/-! ### The timing wheel: arming (R185 to R187, R192) -/

/-- Budget of a source in ticks, 0 for none. -/
def State.budget (s : State) (n : Nat) : Nat := budgetTicks (s.entry n).dlb

/-- Whether a source waits for its delivery (R185). -/
def State.waiting (s : State) (n : Nat) : Bool :=
  match (s.entry n).state with
  | .pending => true
  | .presented => true
  | .activePending => true
  | .completing => s.arr.exits.contains (n, true)
  | _ => false

/-- Place a source in a wheel slot, at its tail. -/
def State.wheelPut (s : State) (k n : Nat) : State :=
  (s.onWeir fun w => { w with wheel := SMap.upd [] w.wheel k fun l => l ++ [n] }).onLinkOf n
    fun x => { x with inWheel := true }

/-- Arm a source for an instant: the slot of its boundary, or the next boundary for an instant already
passed; a source that has an entry keeps it (R186, R192). -/
def State.arm (s : State) (n d : Nat) : State :=
  if (s.linkOf n).inWheel then s
  else s.wheelPut ((max ((d + 999) / 1000) (s.now.toNat / 1000 + 1)) % 16384) n

/-- Arm a source for its promotion instant when it has a budget (R187). -/
def State.armPromotion (s : State) (n : Nat) : State :=
  if s.budget n = 0 then s else s.arm n (s.fullStamp (s.plaOf n).stamp + s.budget n)

/-- Write STAMP: PROMOTED and MISSED are cleared and the wheel is armed (R146, R187). -/
def State.writeStamp (s : State) (n : Nat) (t : BitVec 32) : State :=
  (s.onPla n fun p => { p with stamp := t, promoted := false, missed := false }).armPromotion n

/-! ### Counts -/

/-- A firing was merged (R152, R171). -/
def State.countMerged (s : State) (n : Nat) : State :=
  match s.sourceSlice n with
  | some i => s.onSlcCnt i fun c => { c with merged := satInc 32 c.merged }
  | none => s

/-- A level source was withdrawn (R171). -/
def State.countWdrawn (s : State) (n : Nat) : State :=
  match s.sourceSlice n with
  | some i => s.onSlcCnt i fun c => { c with wdrawn := satInc 32 c.wdrawn }
  | none => s

/-! ### Downstream messages and withdrawal (R223, R226, R240) -/

/-- Offer a message on a delivery port; a port in reset sends nothing, and after a FATAL reaction a later
message is discarded (R36, R402). -/
def State.pushDown (s : State) (n : Nat) (first : Bool) (m : DMsg) : State :=
  if (s.port n).inReset || s.fatal.inSeq then s
  else s.onPort n fun x => { x with down := if first then m :: x.down else x.down ++ [m] }

/-- The REVOKE of a tag. -/
def revokeMsg (c tag : Nat) : DMsg :=
  DMsg.of true c false 0 0 tag

/-- Send the one REVOKE of a presentation (R226); `first`: straight after its PRESENT. -/
def State.sendRevoke (s : State) (c : Nat) (p : Pres) (first : Bool) : State :=
  if p.sentRev then s
  else
    let t := s.onCtx c fun x =>
      { x with pres := some { p with sentRev := true },
               cnt := { x.cnt with revokes := satInc 16 x.cnt.revokes } }
    (t.pushDown (ctxPort c) first (revokeMsg c p.tag)).traceAdd 5 false c p.tag p.rank p.src

/-- Change the untaken presentation of a context. -/
def State.onPres (s : State) (c : Nat) (f : Pres → Pres) : State :=
  s.onCtx c fun x => { x with pres := x.pres.map f }

/-- The untaken presentation of a context has ended. -/
def State.endPres (s : State) (c : Nat) : State := s.onCtx c fun x => { x with pres := none }

/-- The context that holds the presentation of a PRESENTED source. -/
def State.presCtx (s : State) (n : Nat) : Option Nat :=
  (s.ctxs.find? fun p => match p.2.pres with
    | some q => q.src == n && q.stage != .withdrawn && !q.gone
    | none => false).map Prod.fst

/-- A presentation whose source has left PRESENTED is withdrawn: from OPEN with a REVOKE if one is due,
from REVOKING without a second one; a QUEUED one waits for its transfer and a HELD one ends (R223, R226,
R240, R241, R243). -/
def State.withdraw (s : State) (c : Nat) (revoke : Bool) : State :=
  match (s.ctx c).pres with
  | none => s
  | some p =>
    match p.stage with
    | .queued => s.onPres c fun q => { q with gone := true, wantRev := q.wantRev || revoke }
    | .withdrawn => s
    | .held => s.endPres c
    | _ =>
      let q := { p with stage := .withdrawn }
      let t := s.onCtx c fun x =>
        { x with pres := some q, cnt := { x.cnt with withdrawn := satInc 16 x.cnt.withdrawn } }
      if revoke then t.sendRevoke c q false else t

/-- Withdraw the presentation of a source, wherever it is. -/
def State.withdrawSrc (s : State) (n : Nat) (revoke : Bool) : State :=
  match s.presCtx n with
  | some c => s.withdraw c revoke
  | none => s

/-! ### The proxy store and FORWARDED entries (R353 to R361) -/

/-- Store units in ascending source order. -/
def Cas.sortedUnits (c : Cas) : List Nat := (List.range unitCount).filter fun u => c.pxUnits.contains u

/-- The source of proxy index `i` (R353). -/
def State.proxySrc (s : State) (i : Nat) : Option Nat :=
  (s.cas.sortedUnits[i / 512]?).map fun u => unitFirst u + i % 512

/-- The proxy index of a source of the store (R353). -/
def State.proxyIdx (s : State) (n : Nat) : Nat :=
  (s.cas.sortedUnits.idxOf (unitOf n)) * 512 + (n - 1024) % 512

/-- Free the entry of a proxy: it is written as a clear of its unit writes it. -/
def State.freeProxy (s : State) (n : Nat) : State :=
  ((s.onCas fun c => { c with proxies := SMap.erase n c.proxies }).writeEntry n (baseEntry s.arr n)).onPla n
    fun _ => {}

/-- Answer the home of a proxy with a PRET and free the proxy: OP 3 RETURNED, 4 HANDBACK (R358, R361). -/
def State.endProxy (s : State) (n op : Nat) (st : SState) (firing : Bool) : State :=
  let x := s.proxy n
  let pl := s.plaOf n
  let body : FrameBody := .pret (BitVec.ofNat 8 op) 0 (BitVec.ofNat 24 x.gsrc)
    (BitVec.ofNat 14 (s.proxyIdx n)) pl.stamp (pretFlags pl firing x.level st)
  ((s.unlink n).sendE2e (x.gsrc / 2 ^ 21) (s.entry n).urgent body).freeProxy n

/-- A closing proxy ends at its first IDLE or PENDING moment (R358). -/
def State.settle (s : State) (n : Nat) : State :=
  let x := s.proxy n
  if x.live && x.closing then
    match (s.entry n).state with
    | .idle => s.endProxy n 3 .idle false
    | .pending => s.endProxy n 3 .pending true
    | _ => s
  else s

/-- EVENT KIND code (R336). -/
def FKind.code : FKind → Nat
  | .fire => 0
  | .assert => 1
  | .deassert => 2

/-- A firing merged into the one held at the home (R355, R358). -/
def State.holdFwd (s : State) (n : Nat) (f : Fwd) (t : Tick) : State :=
  match f.held with
  | some _ => s.countMerged n
  | none => s.setFwd n (some { f with held := some (lo32 t) })

/-- A local event of a FORWARDED source goes to its proxy; while the device is absent, or a CLOSE is on its
way, firings are held at the home (R355, R358). -/
def State.passToProxy (s : State) (n : Nat) (t : Tick) (k : FKind) : State :=
  match s.fwd n with
  | none => s
  | some f =>
    if k == .fire && (!s.isMember f.dev || f.closing) then s.holdFwd n f t
    else
      let u := if k == .fire && f.proxy.isNone && f.firing.isNone then
          s.setFwd n (some { f with firing := some (lo32 t) })
        else s
      u.sendE2e f.dev (s.entry n).urgent
        (.event t (gsrcOf s.dev n) (BitVec.ofNat 8 k.code) (BitVec.ofNat 14 (f.proxy.getD 0)))

/-! ### The transition table (R149) -/

/-- The reserved STATE code found in an entry: IDLE, unlinked, STATE_INVALID (R145). -/
def State.fixReserved (s : State) (n : Nat) : State :=
  if (s.entry n).state = .reserved then ((s.unlink n).setSt n .idle).failSrc 0x09 n 0 else s

/-- An update of a source's entry: what stands in the words it uses is found, a reserved STATE is repaired, and then the
update is made (R145, R148, R163, R164); after a FATAL reaction nothing is found or repaired (R437). -/
def State.onSource (s : State) (n : Nat) (f : State → State) : State :=
  if s.fatal.inSeq then f s else s.usingWords (s.meets n) fun t => f (t.fixReserved n)

/-- PENDING with a fresh stamp: a tail link when enabled, held otherwise. -/
def State.becomePending (s : State) (n : Nat) (t : BitVec 32) : State :=
  let u := (s.setSt n .pending).writeStamp n t
  if (s.entry n).en then u.tailLink n else u

/-- Row "Firing" of COMPLETING: the first is held for the exit, a later one is merged into it (R149). -/
def State.fireCompleting (s : State) (n : Nat) (t : Tick) : State :=
  if s.arr.exits.contains (n, true) then s.countMerged n
  else (s.onArr fun a => { a with exits := a.exits.filter (fun x => x.1 ≠ n) ++ [(n, true)] }).writeStamp n (lo32 t)

/-- Row "Firing" of every state. -/
def State.fireRow (s : State) (n : Nat) (t : Tick) : State :=
  let e := s.entry n
  match e.state with
  | .idle => if e.en || !e.trig then s.becomePending n (lo32 t) else s
  | .pending => s.countMerged n
  | .presented => s.countMerged n
  | .active => if e.trig then s else (s.setSt n .activePending).writeStamp n (lo32 t)
  | .activePending => s.countMerged n
  | .completing => if e.trig then s else s.fireCompleting n t
  | .forwarded => s.passToProxy n t .fire
  | .reserved => s

/-- Row "Assert" of every state. -/
def State.assertRow (s : State) (n : Nat) (t : Tick) : State :=
  let e := s.entry n
  match e.state with
  | .idle => if e.en then s.becomePending n (lo32 t) else s
  | .forwarded => s.passToProxy n t .assert
  | _ => s

/-- Row "Deassert" of every state. -/
def State.deassertRow (s : State) (n : Nat) (t : Tick) : State :=
  let e := s.entry n
  match e.state with
  | .pending => if e.trig then ((s.unlink n).setSt n .idle).countWdrawn n else s
  | .presented => if e.trig then ((s.setSt n .idle).countWdrawn n).withdrawSrc n true else s
  | .forwarded => s.passToProxy n t .deassert
  | _ => s

/-- A source of the proxy store that holds no proxy: what is still in flight for the ended one has no row (assumption
log entry 61). -/
def State.endedProxy (s : State) (n : Nat) : Bool :=
  isMsg n && s.cas.pxUnits.contains (unitOf n) && !(s.proxy n).live

/-- A firing or level report leaves resolution and takes its row of the table (R149). -/
def State.resolveRow (s : State) (n : Nat) (t : Tick) (k : FKind) : State :=
  if s.endedProxy n then s
  else
    s.onSource n fun s =>
      (match k with
        | .fire => s.fireRow n t
        | .assert => s.assertRow n t
        | .deassert => s.deassertRow n t).settle n

/-- Row "Return" of PRESENTED; a handed-off proxy answers HANDBACK in its place (R149, R361). -/
def State.returnRow (s : State) (n : Nat) (c rank : Nat) : State :=
  s.onSource n fun s =>
  let e := s.entry n
  if e.state = .presented then
    let t := s.onArr fun a => { a with masked := a.masked.filter fun m => m ≠ n }
    let t := t.traceAdd 6 false c 0 rank n
    if (s.proxy n).live && (s.proxy n).handoff then t.endProxy n 4 .pending true
    else
      let u :=
        if e.en && (!e.trig || s.levelOf n) then (t.setSt n .pending).headLink n
        else if e.trig then t.setSt n .idle
        else t.setSt n .pending
      u.settle n
  else s

/-- Row "Mask" of PENDING and of PRESENTED in a STRICT slice, EN already 0; `revoke`: the presentation is
asked back (R149, R240, R241). -/
def State.maskRow (s : State) (n : Nat) (revoke : Bool) : State :=
  let e := s.entry n
  match e.state with
  | .pending => if e.trig then (s.unlink n).setSt n .idle else s.unlink n
  | .presented =>
    (if e.trig then s.setSt n .idle else s.setSt n .pending).withdrawSrc n revoke |>.settle n
  | _ => s

/-- Whether the owner slice of a source masks WINDOWED (R91). -/
def State.windowed (s : State) (n : Nat) : Bool := (s.slc (s.entry n).slice.toNat).info.windowed

/-- Whether the presentation of a source is HELD (R243). -/
def State.heldSrc (s : State) (n : Nat) : Bool :=
  (s.presCtx n).any fun c => (s.ctx c).pres.any fun p => p.stage = .held

/-- A Mask: a PRESENTED source of a WINDOWED slice keeps its presentation for 32 SCLK cycles (R151); a HELD one
ends at once (R243). -/
def State.mask (s : State) (n : Nat) : State :=
  if (s.entry n).state = .presented && s.windowed n && !s.heldSrc n then
    s.onArr fun a => { a with masked := if a.masked.contains n then a.masked else a.masked ++ [n] }
  else s.maskRow n true

/-- An enable of an ordinary wired line: the sampler takes its level as the reference and reports an
asserted level of a level line; a report still in the latch becomes one of the level that the line has (R117, R119,
R468). -/
def State.enableLine (s : State) (n : Nat) : State :=
  if isWire n then
    let l := s.line n
    let low := wiredLow (wiredRec s.img.active n)
    let lvl := l.pin != low
    let t := s.onLine n fun x => { x with level := lvl }
    if (s.entry n).trig && lvl then t.onLatch n fun _ => { valid := true, stamp := s.now, kind := .assert }
    else if (s.entry n).trig && (s.latch n).valid then
      t.onLatch n fun _ => { valid := true, stamp := s.now, kind := .deassert }
    else t
  else s

/-- Row "Unmask": a held source is linked at the tail with its stamp, a level proxy samples its copy; the
sampler of a wired line reads it afresh (R117, R149, R357). -/
def State.unmask (s : State) (n : Nat) : State :=
  let e := s.entry n
  let s := s.onArr fun a => { a with masked := a.masked.filter fun m => m ≠ n }
  let s :=
    if e.state = .pending && !(s.plaOf n).linked then s.tailLink n
    else if e.state = .idle && e.trig && (s.proxy n).live && (s.proxy n).level then
      s.becomePending n (lo32 s.now)
    else s
  s.enableLine n

/-- Whether a commit acts as an enable: EN rises, or TRIG changes while EN is 1 (R117). -/
def Entry.enables (e e' : Entry) : Bool := (!e.en && e'.en) || (e'.en && e.trig != e'.trig)

/-- Row "Exit" of COMPLETING (R149, R238); a handed-off proxy ends here, one of a level source by its copy of the level
(R357, R361). -/
def State.exitRow (s : State) (n : Nat) (held : Bool) : State :=
  let e := s.entry n
  if (s.proxy n).live && (s.proxy n).handoff then
    if e.trig then
      if e.en && s.levelOf n then
        (((s.setSt n .pending).writeStamp n (lo32 s.stampSclk)).endProxy n 3 .pending true).drawn
      else (s.setSt n .idle).endProxy n 3 .idle false
    else if held then (s.setSt n .pending).endProxy n 3 .pending true
    else (s.setSt n .idle).endProxy n 3 .idle false
  else
    let u :=
      if e.trig then
        if e.en && s.levelOf n then
          (((s.setSt n .pending).writeStamp n (lo32 s.stampSclk)).tailLink n).drawn
        else s.setSt n .idle
      else if held then
        if e.en then (s.setSt n .pending).tailLink n else s.setSt n .pending
      else s.setSt n .idle
    u.settle n

/-- The exits of the sources of a kind that stand in COMPLETING, in the next pass (R149, R150). -/
def State.exitsOf (s : State) (p : Nat → Bool) : State :=
  (s.arr.exits.filter fun x => p x.1).foldl
    (fun t x => t.onSource x.1 fun u => if (u.entry x.1).state = .completing then u.exitRow x.1 x.2 else u)
    (s.onArr fun a => { a with exits := a.exits.filter fun x => !p x.1 })

/-! ### Commits (R158, R159, R192) -/

/-- Whether two entries name the same queue. -/
def Entry.sameQueue (a b : Entry) : Bool :=
  a.prio == b.prio && a.route == b.route && a.rmode == b.rmode

/-- The entry a PROXY CFG of a FORWARDED source carries: ROUTE names the context on the proxy's device. -/
def cfgEntry (e : Entry) (f : Fwd) : Entry :=
  match f.grp with
  | some (_, m) => { e with route := m, rmode := false, state := .idle }
  | none => { e with state := .idle }

/-- A commit to a FORWARDED entry: PROXY CFG, or PROXY CLOSE when the route leaves the proxy's device (R355,
R358). -/
def State.commitForwarded (s : State) (n : Nat) (e' : Entry) : State :=
  let e := s.entry n
  let t := s.writeEntry n { e' with state := .forwarded }
  let t := if e.enables e' then t.enableLine n else t
  match s.fwd n with
  | none => t
  | some f =>
    let px := BitVec.ofNat 14 (f.proxy.getD 0)
    let stays := match f.grp with
      | some _ => e.rmode == e'.rmode && e.route == e'.route
      | none => !e'.rmode && routeDev e'.route == f.dev
    if stays then t.sendE2e f.dev e'.urgent (.proxy 2 (gsrcOf s.dev n) (cfgEntry e' f).toWord 0 0 px)
    else if f.closing then t
    else (t.setFwd n (some { f with closing := true })).sendE2e f.dev e.urgent
      (.proxy 3 (gsrcOf s.dev n) 0 0 0 px)

/-- The queue that an entry names uses a head word in which an error stands. -/
def State.meetsHead (s : State) (e : Entry) : Upset → Bool
  | .head o p _ => s.ownerOf e == some o.toNat && p.toNat == e.prio.toNat
  | _ => false

/-- Apply a configuration commit in one update: a linked source moves to the tail of its new queue, EN
masks or unmasks, a changed DLB arms a waiting source, a changed TRIG acts as an enable (R117, R158, R159,
R192); a new route to another device opens a proxy (R354). The model's choice: a held PENDING source whose TRIG becomes 1
while EN is 0 stays PENDING and unlinked until an unmask, and a Mask in the same commit acts by the new TRIG (R149;
DESIGN CHOICE, assumption log entry 105). -/
def State.commitEntry (s : State) (n : Nat) (e' : Entry) : State :=
  s.onSource n fun s => s.usingWords (s.meetsHead e') fun s =>
  let e := s.entry n
  if e.state = .forwarded then s.commitForwarded n e'
  else if s.remoteRoute e'.rmode e'.route && (e.state = .idle || e.state = .pending) then
    let t := ((s.unlink n).writeEntry n { e' with state := e.state }).openProxy n
    if e.enables e' then t.enableLine n else t
  else
    let linked := (s.plaOf n).linked
    let moves := linked && e.state = .pending && !e.sameQueue e'
    let s := if moves then s.unlink n else s
    let s := s.writeEntry n { e' with state := e.state }
    let s := if moves && e'.en then s.tailLink n else s
    let s :=
      if e.en && !e'.en then s.mask n
      else if e.enables e' then s.unmask n
      else s
    if e.dlb != e'.dlb && s.waiting n then s.armPromotion n else s

end Sys2Proof.Machine
end

