-- ==== Sys2Proof/Machine/Wheel.lean ====
section
/-!
DEFINITION. The visits of the timing wheel, and those that are made up for once the Weir may visit again (R179, R188 to
R195, R290).
-/

namespace Sys2Proof.Machine

/-! ### When visits are made (R179, R194, R199) -/

/-- Whether a copy or both decide: not during self-test, nor when both have failed (R199 to R201). -/
def State.weirRuns (s : State) : Bool :=
  match s.weir.mode with
  | .selftest => false
  | .failed => false
  | _ => true

/-- Visits are made: the Weir decides, its domain serves, the count is, and no rebuild of the link store runs (R179, R194,
R199, R253, R402). -/
def State.visits (s : State) : Bool :=
  s.weirRuns && s.avail dWEIR && s.domSt dTB == 0 && !s.weir.linkRebuild && !s.fatal.inSeq

/-! ### Wheel visits (R188 to R195, R290) -/

/-- A slice is FROZEN or RESTORING (R290). -/
def State.frozenSlice (s : State) (i : Nat) : Bool := (s.slc i).state = .frozen || (s.slc i).state = .restoring

/-- The slice of a pool source is FROZEN or RESTORING (R290). -/
def State.frozenSrc (s : State) (n : Nat) : Bool := (s.extentSlice n).any s.frozenSlice

/-- The exits that a pass makes: those in the pool of a FROZEN or RESTORING slice wait (R290). -/
def State.exitsDue (s : State) : State := s.exitsOf fun n => !s.frozenSrc n

/-- LATE_MAX keeps the largest visit time after an instant (R195). -/
def State.lateBy (s : State) (d : Nat) : State := s.onWeir fun w => { w with lateMax := max w.lateMax (min d (2 ^ 32 - 1)) }

/-- A promotion (R190). -/
def State.promote (s : State) (n : Nat) : State :=
  let t := s.onPla n fun p => { p with promoted := true }
  let t := match s.sourceSlice n with
    | some i => t.onSlcCnt i fun c => { c with dlProm := satInc 32 c.dlProm }
    | none => t
  if (s.plaOf n).linked && !(s.entry n).sov && t.effPrio n < (s.linkOf n).lprio then
    (t.unlink n).tailLink n
  else t

/-- A miss, stamped by the count received in SCLK (R191, R255). -/
def State.miss (s : State) (n : Nat) : State :=
  let t := s.onPla n fun p => { p with missed := true }
  let t := match s.sourceSlice n with
    | some i => t.onSlcCnt i fun c =>
        { c with dlMissed := satInc 32 c.dlMissed,
                 dlLast := if c.dlLast.valid then c.dlLast
                   else { valid := true, tick := lo32 s.stampSclk, global := (s.localNum i n).1,
                          src := (s.localNum i n).2 } }
    | none => t
  t.drawn.note 0x20 1001 (s.sourceSlice n) 1 n 0

/-- Age of a stamp at a visit: of one that is made up for after 2^31 ticks or more, what has passed since the stamp was
written, before the visits stopped (R188, R194). -/
def State.visitAge (s : State) (st : BitVec 32) : Nat :=
  match s.weir.longSleep with
  | some c => s.now.toNat - (c.toNat - stampDiff (lo32 c) st)
  | none => s.age st

/-- One visit (R188); visits of a frozen slice's sources are placed in the next slot (R290). -/
def State.visit (s : State) (k n : Nat) : State :=
  if s.frozenSrc n then s.wheelPut ((k + 1) % 16384) n
  else
    s.onSource n fun s =>
    let s := s.onLinkOf n fun x => { x with inWheel := false }
    let b := s.budget n
    let pl := s.plaOf n
    let age := s.visitAge pl.stamp
    if !s.waiting n || b = 0 || pl.missed then s
    else if age < b then s.arm n (s.fullStamp pl.stamp + b)
    else if age < 2 * b then
      if pl.promoted then s.arm n (s.fullStamp pl.stamp + 2 * b)
      else ((s.lateBy (age - b)).promote n).arm n (s.fullStamp pl.stamp + 2 * b)
    else if pl.promoted then (s.lateBy (age - 2 * b)).miss n
    else ((s.lateBy (age - b)).promote n).miss n

/-- Number of the last boundary of a slot (R186). -/
def State.slotBoundary (s : State) (k : Nat) : Nat :=
  let q := s.now.toNat / 1000
  q - (q + 16384 - k % 16384) % 16384

/-- Visit a slot's entries in list order, for a boundary of it; if a link store word is lost meanwhile, the entries after it
wait for the end of the rebuild (R179, R188). -/
def State.visitSlot (s : State) (k b : Nat) : State :=
  let l := SMap.get [] s.weir.wheel k
  let t := s.onWeir fun w => { w with wheel := SMap.set [] w.wheel k [] }
  let t := l.foldl (fun u n => if u.visits then u.visit k n else u.wheelPut k n) t
  t.onWeir fun w => if t.visits then { w with visited := b } else w.pause (BitVec.ofNat 64 (1000 * b - 1))

/-- Entries in slots whose boundary has passed and that are not yet visited (R195). -/
def State.backlog (s : State) : Nat :=
  let q := s.now.toNat / 1000
  ((List.range (min 16384 (q - s.weir.visited))).map fun i => (SMap.get [] s.weir.wheel ((q - i) % 16384)).length).sum

/-- Visits are made again: the slots whose boundary passed meanwhile are visited, oldest first (R179, R194). They are made
at the first slot boundary or pass after the Weir can make them, before any presentation (DESIGN CHOICE, assumption log
entry 103). -/
def State.catchUp (s : State) : State :=
  match s.weir.sleptAt with
  | none => s
  | some c =>
    if !s.visits then s
    else
      let next := s.now.toNat / 1000 + 1
      let n := min 16384 (next - (c.toNat / 1000 + 1))
      let t := s.onWeir fun w =>
        { w with sleptAt := none, longSleep := if 2 ^ 31 ≤ s.now.toNat - c.toNat then some c else none }
      ((List.range n).foldl (fun t i =>
        let b := next - n + i
        if t.visits then t.visitSlot (b % 16384) b
        else t.onWeir fun w => w.pause (BitVec.ofNat 64 (1000 * b - 1))) t).onWeir fun w => { w with longSleep := none }

end Sys2Proof.Machine
end

