-- ==== Sys2Proof/Machine/Domains.lean ====
section
/-!
DEFINITION. Power domains as work meets them: work touches the domains it needs and wakes those that do not serve it
(R377, R378, R381, R382, R386).
-/

namespace Sys2Proof.Machine

/-- A domain in DOZE is ON again (R381). -/
def State.endDoze (s : State) (d : Nat) : State := if s.domSt d = 1 then s.onPwr fun p => p.setDom d 0 else s

/-- A domain gates its clock (R381). -/
def State.gate (s : State) (d : Nat) : State :=
  let t := s.onPwr fun p => p.setDom d 1
  if d = dWEIR then t.onWeir fun w => w.pause s.now else t

/-- Work reaches a domain: in the prepare phase its vote is withdrawn, and DOZE ends within the wake bound
(R381, R382, R387). -/
def State.touch (s : State) (ds : List Nat) : State :=
  ds.foldl (fun t d =>
    let t := t.onPwr fun p => if p.phase == 1 then { p with votes := maskSet p.votes d false } else p
    t.endDoze d) s

/-- Work for domains: those that do not serve it wake (R386). -/
def State.need (s : State) (ds : List Nat) (kind : Nat) : State :=
  let t := s.touch ds
  if t.allAvail ds then t else t.wakeFor ds kind

/-- Run work that needs domains, or let it wait where it is while they wake. -/
def State.withDomains (s : State) (ds : List Nat) (kind : Nat) (work : State → State) : State :=
  let t := s.touch ds
  if t.allAvail ds then work t else t.wakeFor ds kind

/-- Block state (R378): 0 ACTIVE, 1 DOZE, 2 RETAIN, 3 DORMANT. -/
def State.blockState (s : State) : Nat :=
  if (List.range 28).all (fun d => s.domSt d == 3) then 3
  else (List.range 27).foldl (fun m d => min m (s.domSt d)) 3

end Sys2Proof.Machine
end

