-- ==== Sys2Proof/Machine/Confluence.lean ====
section
/-!
DEFINITION. Doorbells, the in-flight window, spillways, admission arbitration and resolution (R21 to R25,
R114 to R143, R284 to R286).
-/

namespace Sys2Proof.Machine

/-! ### The in-flight window (R129, R131) -/

/-- Every window entry: waiting, spilled and in resolution. -/
def State.entries (s : State) : List WinEnt := s.cfl.window ++ s.cfl.res.filterMap Firing.ent

/-- Ordinary entries in use. -/
def State.ordUsed (s : State) : Nat := (s.entries.filter fun w => !w.expEnt).length

/-- Express entries in use. -/
def State.expUsed (s : State) : Nat := (s.entries.filter fun w => w.expEnt).length

/-- The window is full (R130). -/
def State.winFull (s : State) : Bool := 7936 ≤ s.ordUsed

/-- A slice's count in resolution (R284). -/
def State.inRes (s : State) (i : Nat) : Nat :=
  ((s.cfl.res.filterMap Firing.ent).filter fun w => !w.express && w.slice == i).length

/-- Firings in a slice's spillway (R137). -/
def State.occ (s : State) (i : Nat) : Nat := (s.cfl.window.filter fun w => w.spilled && w.slice == i).length

/-- Window entries held by a slice's firings (R280). -/
def State.inflight (s : State) (i : Nat) : Nat := (s.entries.filter fun w => w.slice == i).length

/-- Live admission weight; a slice that drains has 255 (R283). -/
def Slc.effAweight (x : Slc) : Nat := if x.state = .quiescing then 255 else x.live.aweight

/-- Whether a count in resolution is below the quota; a slice that drains has no limit (R283). -/
def Slc.belowQuota (x : Slc) (n : Nat) : Bool := x.state = .quiescing || n < x.live.quota

/-- Whether a slice's count in resolution leaves room for one more; SAFE_MINIMAL uses no slices record, so no quota
holds there (R103, R136, R284). -/
def State.below (s : State) (i : Nat) : Bool := s.boot.mode == .safeMinimal || (s.slc i).belowQuota (s.inRes i)

/-- Whether an ordinary firing of a slice joins its spillway (R136). -/
def State.spills (s : State) (i : Nat) (express : Bool) : Bool := !express && (!s.below i || 0 < s.occ i)

/-- The class of a firing: express if sovereign or by the express map, of which a bit that cannot be read counts as
express (R133). -/
def State.express (s : State) (n : Nat) : Bool := isSov n || s.cfl.emapLost.contains n || s.mapBit n

/-- The confluence reads the express map for a firing: a bit that cannot be read is reported (R133). -/
def State.readMap (s : State) (n : Nat) : State := if s.cfl.emapLost.contains n then s.failSrc 0x0B n 0 else s

/-- The window entry that the next source of an expanding RANGE takes (R123, R129, R133). -/
def State.rangeHead (s : State) (w : DbWait) : WinEnt :=
  let n := w.first + w.next
  { src := n, slice := w.slice, stamp := w.stamp, express := s.express n,
    expEnt := false, origin := w.req.port.toNat, spilled := false, kind := .fire }

/-- Sources of expanding RANGE writes that wait for their admission, where an ordinary entry is free for each, in the
order in which the writes transferred (R123, R129, R130); one that joins its spillway is taken at once instead. -/
def State.heads (s : State) : List WinEnt :=
  (((s.cfl.dbWait.filter fun w => w.checked && w.range && w.next < w.count).take (7936 - s.ordUsed)).map
    s.rangeHead).filter fun w => !s.spills w.slice w.express

/-- Ordinary firings of a slice that wait for a class-4 slot. -/
def State.c4Waiting (s : State) (i : Nat) : List WinEnt :=
  (s.cfl.window ++ s.heads).filter fun w => !w.express && w.slice == i

/-- max of two virtual tags modulo 2^32 (R285). -/
def vtMax (a b : BitVec 32) : BitVec 32 := if (b - a).toNat < 2 ^ 31 then b else a

/-- PEAK follows the total in use (R131). -/
def State.peakUp (s : State) : State :=
  let n := s.entries.length
  s.onCfl fun c => { c with peak := max c.peak n }

/-- The spillway of a slice has grown: PEAK, and self-source 1,007 at the high-water mark (R137). -/
def State.spillUp (s : State) (i : Nat) : State :=
  let n := s.occ i
  let x := s.slc i
  let t := s.onSlc i fun y => { y with spillPeak := max y.spillPeak n }
  if x.hwm ≠ 0 && n == x.hwm && x.armed then
    (t.onSlc i fun y => { y with armed := false }).note 0x26 1007 (some i) 0 0 x.hwm
  else t

/-- The spillway of a slice has shrunk: the report is armed again below HWM / 2 (R137). -/
def State.spillDown (s : State) (i : Nat) : State :=
  if s.occ i < (s.slc i).hwm / 2 then s.onSlc i fun y => { y with armed := true } else s

/-- A slice becomes ready after none of its firings was ready: its virtual tag takes the present virtual time
(R285). -/
def State.sliceReady (s : State) (i : Nat) : State :=
  if (s.c4Waiting i).isEmpty then
    s.onSlc i fun y => { y with vt := vtMax y.vt s.cfl.vnow, lastAdm := s.now }
  else s

/-- A firing takes a window entry, with `keep` ordinary entries left for writes before it: an express one an ordinary
entry when one is free and an express entry otherwise, an ordinary one an ordinary entry, joining its slice's
spillway over its quota (R129, R130, R136, R284). None when no entry it may take is free. -/
def State.enterWindow (s : State) (keep n slice : Nat) (stamp : Tick) (express : Bool) (origin : Nat) (k : FKind) :
    Option State :=
  let full := decide (7936 ≤ s.ordUsed + keep)
  if full && (!express || 256 ≤ s.expUsed) then none
  else
    let spill := s.spills slice express
    let t := if express then s.readMap n else s.sliceReady slice
    let w : WinEnt := { src := n, slice := slice, stamp := stamp, express := express,
                        expEnt := full, origin := origin, spilled := spill, kind := k }
    let t := (t.onCfl fun c => { c with window := c.window ++ [w] }).peakUp
    let t := if spill then t.spillUp slice else t
    some (t.traceAdd 1 false 0 0 (s.rankOf n) n)

/-! ### Refused doorbells (R127, R128, R432) -/

/-- Cause codes of R125. -/
inductive Cause where
  | format
  | noSlice
  | pageMismatch
  | world
  | sliceClosed
  | outOfPool
  deriving DecidableEq, Repr

def Cause.code : Cause → Nat
  | .format => 1
  | .noSlice => 2
  | .pageMismatch => 3
  | .world => 4
  | .sliceClosed => 5
  | .outOfPool => 6

/-- The global refusal counters. -/
def RefCnt.add (r : RefCnt) : Cause → RefCnt
  | .format => { r with format := satInc 32 r.format }
  | .noSlice => { r with noSlice := satInc 32 r.noSlice }
  | .pageMismatch => r
  | .world => { r with world := satInc 32 r.world }
  | .sliceClosed => { r with closed := satInc 32 r.closed }
  | .outOfPool => { r with outOfPool := satInc 32 r.outOfPool }

/-- A slice's refusal counters. -/
def SlcCnt.addRef (r : SlcCnt) : Cause → SlcCnt
  | .format => r
  | .noSlice => { r with noSlice := satInc 32 r.noSlice }
  | .pageMismatch => { r with pageMis := satInc 32 r.pageMis }
  | .world => { r with world := satInc 32 r.world }
  | .sliceClosed => { r with closed := satInc 32 r.closed }
  | .outOfPool => { r with outOfPool := satInc 32 r.outOfPool }

/-- Where a refusal is counted: the slice's counters, the global ones. -/
structure RefAt where
  cause  : Cause
  slice  : Option Nat
  global : Bool
  deriving DecidableEq, Repr

/-- Count a refusal, record the first one since the record was re-armed, and answer FAULT; nothing changes the counters
of a slice that is FROZEN or RESTORING (R290). -/
def State.refuseDb (s : State) (r : DbReq) (a : RefAt) : State :=
  let t := if a.global then s.onCfl fun c => { c with refCnt := c.refCnt.add a.cause } else s
  let t := match a.slice with
    | some i => if s.frozenSlice i then t else t.onSlcCnt i fun c => c.addRef a.cause
    | none => t
  let t := if t.cfl.lastRef.valid then t else
    t.onCfl fun c => { c with lastRef := { valid := true, cause := a.cause.code, port := r.port,
                                           world := r.world, pid := r.pid, addr := r.addr } }
  t.dbAnswer r.port r.tag true

/-- A doorbell access while the block does not serve: FAULT, NOT_READY, and the count for the boot log
while it starts (R64, R65, R67, R72, R432). -/
def State.notReadyDb (s : State) (r : DbReq) : State :=
  let t := if s.fatal.inSeq && s.boot.mode != .halted then s
    else s.onCfl fun c => { c with refCnt := { c.refCnt with notReady := satInc 32 c.refCnt.notReady } }
  let t := if s.boot.mode == .starting && s.boot.crst then t.onBoot fun b => { b with refusedDb := b.refusedDb + 1 } else t
  t.dbAnswer r.port r.tag true

/-- At a warm reset a transferred write that is not admitted completes with FAULT; those still on the request channels
meet the block that starts (R22, R67, R74). -/
def State.dropDb (s : State) : State :=
  (s.cfl.dbWait.foldl (fun t w =>
    if w.transferred then t.dbAnswer w.req.port w.req.tag true else t.notReadyDb w.req) s).onCfl
    fun c => { c with dbWait := [] }

/-! ### Checks (R125, R126) -/

/-- What an accepted doorbell write names: its first global source, its count, its slice. -/
structure DbOk where
  first : Nat
  count : Nat
  slice : Nat
  deriving DecidableEq, Repr

/-- Check 1: the size, alignment and strobe rules of R21. -/
def dbFormatOk (r : DbReq) (range : Bool) : Bool :=
  if range then r.size == 3 && r.strb == 0xFF && fld r.addr 0 3 == 0
  else r.size == 2 && r.strb == 0x0F && fld r.addr 0 2 == 0

/-- Checks 4 to 7 on the manager page. -/
def State.checkManager (s : State) (r : DbReq) (first count : Nat) : Except RefAt DbOk :=
  let glob (c : Cause) : RefAt := { cause := c, slice := none, global := true }
  if !s.isManager r.world r.pid then .error (glob .world)
  else
    match s.extentSlice first with
    | none => .error (glob .outOfPool)
    | some i =>
      let x := s.slc i
      if x.state != .active then .error (glob .sliceClosed)
      else if unitFirst x.info.extFirst + x.poolSize < first + count || !s.rangeOwned first count then
        .error (glob .outOfPool)
      else if !r.world && x.info.world then .error (glob .world)
      else .ok { first := first, count := count, slice := i }

/-- Checks 2 to 6 on the page of slice `i`; a RANGE of no sources is not checked against the pool
(R123). -/
def State.checkPage (s : State) (r : DbReq) (i first count : Nat) : Except RefAt DbOk :=
  match pidSlice s.img.active r.pid with
  | none => .error { cause := .noSlice, slice := some i, global := true }
  | some j =>
    let own (c : Cause) : RefAt := { cause := c, slice := some j, global := false }
    let x := s.slc i
    if j ≠ i then .error (own .pageMismatch)
    else if r.world != x.info.world then .error (own .world)
    else if x.state != .active then .error (own .sliceClosed)
    else if count ≠ 0 && (x.poolSize < first + count ||
        !s.rangeOwned (unitFirst x.info.extFirst + first) count) then .error (own .outOfPool)
    else .ok { first := unitFirst x.info.extFirst + first, count := count, slice := i }

/-- The checks of R125 in order. -/
def State.checkDb (s : State) (r : DbReq) (range : Bool) : Except RefAt DbOk :=
  if !dbFormatOk r range then .error { cause := .format, slice := none, global := true }
  else
    let page := dbPage r.addr
    let es1 := page ≠ 0 && (s.slc (page - 1)).info.mediated && dbEs1 r.addr
    let first := dbFirst r.data es1
    let count := if range then dbCount r.data else 1
    if page = 0 then s.checkManager r first count else s.checkPage r (page - 1) first count

/-! ### Taking a doorbell write -/

/-- Sources of a RANGE that join their slice's spillway, in ascending order while ordinary entries are free; the
first one that goes to resolution directly waits for its admission (R123, R129, R136). -/
def State.expand (s : State) (w : DbWait) (keep : Nat) : Nat → State × Nat
  | 0 => (s, w.next)
  | k + 1 =>
    let h := s.rangeHead w
    if s.spills h.slice h.express then
      match s.enterWindow keep h.src h.slice h.stamp h.express h.origin h.kind with
      | some u => u.expand { w with next := w.next + 1 } keep k
      | none => (s, w.next)
    else (s, w.next)

/-- A write that has passed its checks takes entries: answered with DONE once the entry of its last source is taken,
waiting otherwise (R22, R130, R132). -/
def State.takeEntries (s : State) (w : DbWait) (keep : Nat) : State × Option DbWait :=
  if w.range then
    let (t, k) := s.expand w keep (w.count - w.next)
    if k = w.count then (t.dbAnswer w.req.port w.req.tag false, none) else (t, some { w with next := k })
  else
    let h := s.rangeHead w
    match s.enterWindow keep h.src h.slice h.stamp h.express h.origin h.kind with
    | some t => (t.dbAnswer w.req.port w.req.tag false, none)
    | none => (s, some w)

/-- The express map bit of a source is found uncorrectable (R133). -/
def State.loseMap (s : State) (n : Nat) : State :=
  s.onCfl fun c => { c with emapLost := if c.emapLost.contains n then c.emapLost else c.emapLost ++ [n] }

/-- The checks are passed: the class of the first source is read from the express map, where `emapErr` finds its bit
uncorrectable (R133), and a RANGE whose first source waits for admission makes its slice ready (R285). -/
def State.begins (s : State) (w : DbWait) : State :=
  let t := if w.req.emapErr then s.loseMap w.first else s
  if w.range && !(t.rangeHead w).express then t.sliceReady w.slice else t

/-- Run a transferred write as far as entries allow: refused or finished writes are answered, another one
is given back to wait. -/
def State.runDb (s : State) (w : DbWait) (keep : Nat) : State × Option DbWait :=
  if w.checked then s.takeEntries w keep
  else
    match s.checkDb w.req w.range with
    | .error a => (s.refuseDb w.req a, none)
    | .ok o =>
      if o.count = 0 then
        ((s.onSlcCnt o.slice fun c => { c with emptyRng := satInc 32 c.emptyRng }).dbAnswer
          w.req.port w.req.tag false, none)
      else
        let v := { w with checked := true, first := o.first, count := o.count, slice := o.slice }
        (s.begins v).takeEntries v keep

/-- A write as it arrives. -/
def dbWaitOf (r : DbReq) (range : Bool) : DbWait :=
  { req := r, range := range, transferred := false, checked := false, first := 0, count := 0, next := 0,
    slice := 0, stamp := 0 }

/-- The transfer of a write: it is stamped at its transfer edge and takes its place behind those that have transferred
(R130, R140). -/
def State.transferDb (s : State) (w : DbWait) : State :=
  (s.onCfl fun c =>
    { c with dbWait := (c.dbWait.filter fun x => x.transferred) ++ [{ w with transferred := true, stamp := s.stampHclk }] ++
               (c.dbWait.filter fun x => !x.transferred).erase w }).drawn

/-- Accepted requests of a port whose responses are outstanding (R25). -/
def State.outstanding (s : State) (p : BitVec 2) : Nat :=
  (s.cfl.dbWait.filter fun w => w.transferred && w.req.port == p).length

/-- Whether a write passes its port while the window is full: an express SINGLE with an express entry free,
or a write that will be refused (R23, R130). -/
def State.passesFull (s : State) (r : DbReq) (range : Bool) : Bool :=
  match s.checkDb r range with
  | .error _ => true
  | .ok o => !range && (r.emapErr || s.express o.first) && s.expUsed < 256

/-- DBn_AREADY for the write on a port's request channel: the port holds fewer than 32 accepted requests, and the window
is not full or the write passes it (R23, R25, R130). -/
def State.dbReady (s : State) (w : DbWait) : Bool :=
  s.outstanding w.req.port < 32 && (!s.winFull || s.passesFull w.req w.range)

/-- One HCLK edge: each port transfers the write on its request channel that it is ready for, the lower port number
first (R23 to R25, R130). -/
def State.edgeDb (s : State) : State :=
  (List.range 4).foldl (fun t p =>
    match s.cfl.dbWait.find? fun w => !w.transferred && w.req.port.toNat == p with
    | some w => if s.dbReady w then t.transferDb w else t
    | none => t) s

/-- One transferred write in turn: behind a write of its own port that waits it waits too (R24, R130). -/
def State.takeOne (a : State × List DbWait) (w : DbWait) : State × List DbWait :=
  if !w.transferred || (a.2.any fun x => x.req.port == w.req.port) then (a.1, a.2 ++ [w])
  else
    let (s, r) := a.1.runDb w (a.2.filter fun x => x.checked && x.range).length
    (s, match r with
      | some x => a.2 ++ [x]
      | none => a.2)

/-- Transferred writes take free entries in the order in which they transferred (R130). -/
def State.takeDb (s : State) : State :=
  let (t, l) := s.cfl.dbWait.foldl State.takeOne (s, [])
  t.onCfl fun c => { c with dbWait := l }

/-- Writes transfer and take entries, as long as one more transfers. -/
def State.pumpRounds : Nat → State → State
  | 0, s => s
  | k + 1, s =>
    let t := s.edgeDb
    if (t.cfl.dbWait.filter fun w => w.transferred).length = (s.cfl.dbWait.filter fun w => w.transferred).length then s
    else State.pumpRounds k t.takeDb

/-- Waiting writes take freed entries, and those on the request channels transfer as AREADY allows (R23, R130). -/
def State.pumpDb (s : State) : State :=
  if s.serving && s.boot.mode == .ready && s.avail dCFL then State.pumpRounds s.cfl.dbWait.length s.takeDb else s

/-- A doorbell write arrives on its port (R22 to R25, R67, R386). -/
def State.doorbell (s : State) (r : DbReq) (range : Bool) : State :=
  if !s.serving || s.boot.mode != .ready then s.notReadyDb r
  else
    let t := (s.touch [dCFL]).onCfl fun c => { c with dbWait := c.dbWait ++ [dbWaitOf r range] }
    if t.avail dCFL then t.pumpDb else t.wakeFor [dCFL] 2

/-! ### Admission arbitration (R138, R139, R285) -/

/-- What can be passed into resolution: a latch or a window entry. -/
inductive Ready where
  | latch (n : Nat) (l : Latch)
  | ent (w : WinEnt)
  deriving DecidableEq, Repr

def Ready.src : Ready → Nat
  | .latch n _ => n
  | .ent w => w.src

def Ready.stamp : Ready → Tick
  | .latch _ l => l.stamp
  | .ent w => w.stamp

/-- Oldest stamp first, the lower source number among equal stamps (R138). -/
def Ready.before (a b : Ready) : Bool :=
  a.stamp < b.stamp || (a.stamp == b.stamp && a.src ≤ b.src)

/-- Insert in the order of R138, behind what is equal. -/
def insertReady (x : Ready) : List Ready → List Ready
  | [] => [x]
  | y :: l => if y.before x then y :: insertReady x l else x :: y :: l

/-- Sort in the order of R138. -/
def sortReady (l : List Ready) : List Ready := l.foldl (fun acc x => insertReady x acc) []

/-- Valid latches. -/
def State.readyLatches (s : State) : List Ready :=
  (s.cfl.latches.filter fun p => p.2.valid).map fun p => Ready.latch p.1 p.2

/-- Class 1: sovereign latches. -/
def State.class1 (s : State) : List Ready := sortReady (s.readyLatches.filter fun r => isSov r.src)

/-- The message firings that can be next: of the firings of one port to one slice the first that came, whatever their
stamps (R135; DEDUCED, assumption log entry 71). -/
def firstOfPort : List WinEnt → List WinEnt
  | [] => []
  | w :: l => w :: ((firstOfPort l).filter fun x => x.origin ≠ w.origin || 4 < w.origin || x.slice ≠ w.slice)

/-- Class 2: express firings of the window, wired and self-source latches with PRIO ≤ 7. -/
def State.class2 (s : State) : List Ready :=
  sortReady ((s.readyLatches.filter fun r => !isSov r.src && s.express r.src) ++
    (firstOfPort ((s.cfl.window ++ s.heads).filter fun w => w.express)).map Ready.ent)

/-- Class 3: ordinary wired and self-source latches. -/
def State.class3 (s : State) : List Ready :=
  sortReady (s.readyLatches.filter fun r => !isSov r.src && !s.express r.src)

/-- The firing of a slice that its next class-4 slot takes: its oldest waiting one, else its spillway head
(R136, R285). -/
def State.c4Head (s : State) (i : Nat) : Option WinEnt :=
  match sortReady ((firstOfPort ((s.c4Waiting i).filter fun w => !w.spilled)).map Ready.ent) with
  | .ent w :: _ => some w
  | _ => (s.c4Waiting i).head?

/-- Slices with an ordinary firing waiting, each once. -/
def State.c4Slices (s : State) : List Nat :=
  (((s.cfl.window ++ s.heads).filter fun w => !w.express).map WinEnt.slice).eraseDups

/-- The slice with the lowest virtual tag, the lower number among equal ones (R285). -/
def lowestTag (tag : Nat → BitVec 32) (l : List Nat) : Option Nat :=
  l.foldl (fun best i =>
    match best with
    | none => some i
    | some b =>
      let d := tag b - tag i
      if (d ≠ 0 && d.toNat < 2 ^ 31) || (d = 0 && i < b) then some i else some b) none

/-- The next slice of the best-effort round (R285): the first number above the last one served, wrapping. -/
def nextRound (last : Nat) (l : List Nat) : Option Nat :=
  match l.filter fun i => last < i with
  | [] => l.foldl (fun m i => some (match m with
      | none => i
      | some j => min i j)) none
  | up => up.foldl (fun m i => some (match m with
      | none => i
      | some j => min i j)) none

/-- One class-4 slot among some slices: which slice it goes to, with its virtual tag moved on (R285). -/
def State.grant4 (s : State) (cands : List Nat) : Option (Nat × State) :=
  let ok := cands.filter s.below
  let weighted := ok.filter fun i => 0 < (s.slc i).effAweight
  match lowestTag (fun i => (s.slc i).vt) weighted with
  | some i =>
    let x := s.slc i
    let v := x.vt + BitVec.ofNat 32 (65536 / x.effAweight)
    some (i, (s.onSlc i fun y => { y with vt := v }).onCfl fun c => { c with vnow := v })
  | none =>
    (nextRound s.cfl.bestNext (ok.filter fun i => (s.slc i).effAweight = 0)).map fun i =>
      (i, s.onCfl fun c => { c with bestNext := i })

/-- The source at the head of a RANGE takes its entry at its admission, and the expansion goes on (R123, R129). -/
def State.passHead (s : State) (w : WinEnt) : State :=
  let t := (s.onCfl fun c =>
    { c with res := c.res ++ [{ src := w.src, stamp := w.stamp, kind := w.kind, ent := some w }],
             dbWait := c.dbWait.map fun x =>
               if x.checked && x.range && x.req.port.toNat == w.origin then { x with next := x.next + 1 }
               else x }).peakUp
  let t := if w.express then t.readMap w.src else t.onSlc w.slice fun y => { y with lastAdm := s.now }
  (t.traceAdd 1 false 0 0 (s.rankOf w.src) w.src).pumpDb

/-- Pass a window entry into resolution. -/
def State.passEntry (s : State) (w : WinEnt) : State :=
  let t := s.onCfl fun c =>
    { c with window := c.window.erase w,
             res := c.res ++ [{ src := w.src, stamp := w.stamp, kind := w.kind,
                                ent := some { w with spilled := false } }] }
  if w.express then t
  else
    let t := t.onSlc w.slice fun y => { y with lastAdm := s.now }
    if w.spilled then t.spillDown w.slice else t

/-- Pass a ready firing into resolution. -/
def State.passIn (s : State) : Ready → State
  | .latch n l =>
    let f : Firing := { src := n, stamp := l.stamp, kind := l.kind, ent := none }
    (((s.readMap n).onCfl fun c => { c with res := c.res ++ [f] }).onLatch n fun _ => {}).traceAdd
      1 false 0 0 (s.rankOf n) n
  | .ent w => if s.cfl.window.contains w then s.passEntry w else s.passHead w

/-- The next firing of a cycle, by class, or a class-4 one first when its guaranteed slot is due (R138). -/
def State.pickReady (s : State) (c4First : Bool) : Option (Ready × Bool × State) :=
  let four : Option (Ready × Bool × State) :=
    (s.grant4 s.c4Slices).bind fun g => (s.c4Head g.1).map fun w => (Ready.ent w, true, g.2)
  let firsts := (s.class1 ++ s.class2 ++ s.class3).head?.map fun r => (r, false, s)
  if c4First then four.orElse fun _ => firsts else firsts.orElse fun _ => four

/-- Choose up to `k` more firings with distinct banks; answers the state, how many were passed and whether
class 4 had a slot. The first firing whose bank is taken ends the cycle. -/
def State.cycle (s : State) (c4First : Bool) (banks : List Nat) (took4 : Bool) :
    Nat → State × Nat × Bool
  | 0 => (s, banks.length, took4)
  | k + 1 =>
    match s.pickReady (c4First && !took4) with
    | none => (s, banks.length, took4)
    | some (r, four, t) =>
      if banks.contains (bankPos r.src) then (s, banks.length, took4)
      else (t.passIn r).cycle c4First (bankPos r.src :: banks) (took4 || four) k

/-- One SCLK cycle of admission (R138, R139). -/
def State.admission (s : State) : State :=
  let waits := !s.c4Slices.isEmpty
  let limit := min 4 (s.cfl.allowance + 1)
  let (t, n, four) := s.cycle (waits && 3 ≤ s.cfl.sinceC4) [] false limit
  t.onCfl fun c =>
    { c with allowance := if n = 0 then min 192 (c.allowance + 3)
                          else c.allowance - (n - 1),
             sinceC4 := if waits && !four then c.sinceC4 + 1 else 0 }

/-- The starvation guard's slice: AWEIGHT 0 or QUOTA 0 with a firing waiting, the longest without admission
first (R285). -/
def State.guardSlice (s : State) : Option Nat :=
  let l := s.c4Slices.filter fun i =>
    (s.slc i).state != .quiescing && ((s.slc i).live.aweight = 0 || (s.slc i).live.quota = 0)
  l.foldl (fun best i =>
    match best with
    | none => some i
    | some b => if (s.slc i).lastAdm < (s.slc b).lastAdm ||
        ((s.slc i).lastAdm == (s.slc b).lastAdm && i < b) then some i else some b) none

/-! ### Resolution (R149, R163 to R165) -/

/-- The accesses of one source's update: the state after what they find, and whether every word can be used (R163, R164,
R176, R179). -/
def State.arrayRead (s : State) (n : Nat) (a : Access) (due : Tick) : State × Bool :=
  let (t, ok1) := s.wordRead false (s.stripes.ssa.bankOf (rowOf n) (bankPos n)) (rowOf n) a.ssa
  let (u, ok2) := t.wordRead true (t.stripes.pla.bankOf (rowOf n) (bankPos n)) (rowOf n) a.pla
  let (v, ok3) := u.headRead ((s.ownerOf (s.entry n)).getD 0) (s.effPrio n) a.head
  (v.linkRead n a.linkLost due, ok1 && ok2 && ok3)

/-- The eddy latch kind of a firing (R385): wired capture, doorbell, register access or link frame. -/
def wakeKind : Option WinEnt → Nat
  | none => 1
  | some w => if w.origin < 4 then 2 else if w.origin = 4 then 5 else 3

/-- The oldest firing in resolution takes its row of R149 and frees its window entry (R129, R149). -/
def State.resolveNext (s : State) (a : Access) : State :=
  match s.cfl.res with
  | [] => s
  | f :: rest =>
    s.withDomains [dCFL, dARR f.src, dWEIR] (wakeKind f.ent) fun s =>
      let (t, ok) := s.arrayRead f.src a s.now
      if ok then (t.onCfl fun c => { c with res := rest }).resolveRow f.src f.stamp f.kind else t

end Sys2Proof.Machine
end

