-- ==== Sys2Proof/Machine/Weir.lean ====
section
/-!
DEFINITION. Ranking, routing and the pass that presents, and the visits of the timing wheel (R175 to R220,
R278, R360, R361).
-/

namespace Sys2Proof.Machine

/-! ### Candidates (R180, R181, R183) -/

/-- A candidate: its source, rank, stamp, and the group and list index it is offered for. -/
structure Cand where
  src   : Nat
  rank  : Nat
  stamp : BitVec 32
  grp   : Option (Nat × Nat)
  deriving DecidableEq, Repr

/-- STAMP `a` is older than `b` (R183). -/
def olderStamp (a b : BitVec 32) : Bool := 1 ≤ stampDiff b a && stampDiff b a < 2 ^ 31

/-- The order of two candidates of different owners (R183): by rank, then the older STAMP, sovereign candidates among
them. -/
def Cand.moreUrgent (a b : Cand) : Bool :=
  if a.rank ≠ b.rank then a.rank < b.rank
  else if olderStamp a.stamp b.stamp then true
  else if olderStamp b.stamp a.stamp then false
  else a.src < b.src

/-- A slice is ACTIVE (R277). -/
def State.sliceActive (s : State) (i : Nat) : Bool := (s.slc i).state = .active

/-- The source and priority at the head of an owner's lowest occupied priority among those it may take: an
owner of a slice that is not ACTIVE keeps only locked sources (R181, R278). -/
def headOf (qs : SMap (List Nat)) (lockedOnly : Bool) : Option (Nat × Nat) :=
  qs.findSome? fun p => (p.2.find? fun n => !lockedOnly || isLocked n).map fun n => (n, p.1)

/-- An owner's candidate (R181). -/
def State.candOf (s : State) (o : Nat) (lockedOnly : Bool) : Option Cand :=
  let q := s.ownerQ o
  match (lowestBit (fun i => bit q.sov i) 16).orElse fun _ => if lockedOnly then none else q.sovPx.head? with
  | some n => some { src := n, rank := 0, stamp := (s.plaOf n).stamp, grp := none }
  | none => (headOf q.qs lockedOnly).map fun h =>
      { src := h.1, rank := h.2 + 1, stamp := (s.plaOf h.1).stamp, grp := none }

/-- A context's own candidate; in SAFE_MINIMAL no context has a slice (R103). -/
def State.ctxCand (s : State) (c : Nat) : Option Cand :=
  s.candOf c (s.boot.mode != .safeMinimal && !s.sliceActive (s.ctx c).slice)

/-- A group's candidate; a group whose slice is not ACTIVE offers nothing (R278). -/
def State.grpCand (s : State) (g : Nat) : Option Cand :=
  if (s.grp g).defined && s.sliceActive (s.grp g).slice then s.candOf (1024 + g) false else none

/-! ### The scoreboard (R208, R211, R230) -/

/-- Running rank of a context: the rank of its top entry, 257 with an empty stack. -/
def Ctx.runRank (x : Ctx) : Nat :=
  match x.stack with
  | [] => 257
  | e :: _ => e.rank

/-- Availability of a local context; 0 is none (R211). -/
def State.availOf (s : State) (c : Nat) : Nat :=
  let x := s.ctx c
  if 16 ≤ x.stack.length then 0
  else
    let a := x.runRank
    let a := match x.pres with
      | some p => min a p.rank
      | none => a
    match s.ctxCand c with
    | some k => min a k.rank
    | none => a

/-! ### Members (R210, R360) -/

def State.isLocal (s : State) (m : BitVec 13) : Bool := routeDev m == s.dev

/-- A member on this device is eligible (R210, R278). -/
def State.localEligible (s : State) (g : Grp) (c : Nat) : Bool :=
  let x := s.ctx c
  x.inUse && !(s.port (ctxPort c)).inReset && !x.grpOut && ctxWorld c == g.world && s.sliceActive x.slice

/-- The availability last reported for a member of another device. -/
def State.remoteAvail (s : State) (m : BitVec 13) : Avail := SMap.get {} s.cas.avail m.toNat

/-- A member on another device is eligible: its device is a member, its entry no older than 256 ns and not
0x1FF (R360). -/
def State.remoteEligible (s : State) (g : Grp) (m : BitVec 13) : Bool :=
  let a := s.remoteAvail m
  g.cascadeWide && s.isMember (routeDev m) && a.rank ≠ 511 && s.now.toNat ≤ a.tick.toNat + 1024

/-- A member is eligible (R210). -/
def State.eligible (s : State) (g : Grp) (m : BitVec 13) : Bool :=
  if s.isLocal m then s.localEligible g (routeCtx m) else s.remoteEligible g m

/-- Availability of a member. -/
def State.memberAvail (s : State) (m : BitVec 13) : Nat :=
  if s.isLocal m then s.availOf (routeCtx m) else (s.remoteAvail m).rank

/-- Whether a member's hart is awake (R37, R360). -/
def State.memberAwake (s : State) (m : BitVec 13) : Bool :=
  if s.isLocal m then bit (s.port (ctxPort (routeCtx m))).awake (ctxHart (routeCtx m))
  else (s.remoteAvail m).awake

/-- A member as the tests of R212 see it. -/
structure Choice where
  idx   : Nat
  avail : Nat
  loc   : Nat
  awake : Nat
  deriving DecidableEq, Repr

/-- Strictly better under tests 1 to 3 of R212. -/
def Choice.better (a b : Choice) : Bool :=
  b.avail < a.avail ||
  (a.avail == b.avail && (b.loc < a.loc || (a.loc == b.loc && b.awake < a.awake)))

/-- The list indices in the order of test 4: after RRPTR, wrapping (R212). -/
def rrOrder (n rr : Nat) : List Nat := (List.range n).map fun k => (rr + 1 + k) % n

/-- The member that a group's candidate is offered to, sluices granted before being passed over (R212). -/
def State.pickMember (s : State) (g : Grp) (x : Cand) (granted : List Nat) : Option Nat :=
  ((rrOrder g.members.length g.rrptr).foldl (fun (best : Option Choice) i =>
    let m := g.members.getD i 0
    if !s.eligible g m || (s.isLocal m && granted.contains (ctxPort (routeCtx m))) then best
    else
      let a := s.memberAvail m
      if a ≤ x.rank then best
      else
        let ch : Choice := { idx := i, avail := a, loc := b2n (s.isLocal m),
                             awake := if g.preferAwake then b2n (s.memberAwake m) else 0 }
        match best with
        | none => some ch
        | some b => if ch.better b then some ch else some b) none).map Choice.idx

/-! ### Groups and their emptiness (R215) -/

/-- Whether a group is empty: a candidate and no eligible member. -/
def State.grpIsEmpty (s : State) (g : Nat) : Bool :=
  (s.grpCand g).isSome && !((s.grp g).members.any fun m => s.eligible (s.grp g) m)

/-- EMPTY follows; becoming empty counts and raises self-source 1,002. -/
def State.grpEmptyStep (s : State) (g : Nat) : State :=
  let now := s.grpIsEmpty g
  let was := (s.grp g).empty
  let t := s.onGrp g fun x => { x with empty := now,
                                       emptyCnt := if now && !was then satInc 32 x.emptyCnt else x.emptyCnt }
  if now && !was then t.note 0x21 1002 (s.grpSliceOf g) 3 g (s.grp g).members.length else t

/-! ### Making a presentation (R182, R214, R220, R221, R227) -/

/-- Contexts of a delivery port. -/
def portCtxs (n : Nat) : List Nat := (List.range 64).map fun i => n * 64 + i

/-- Tags held on a port: of presentations, of taken deliveries, retired (R31, R227, R246). -/
def State.tagsUsed (s : State) (n : Nat) : List Nat :=
  ((portCtxs n).flatMap fun c =>
    let x := s.ctx c
    (match x.pres with
      | some p => if p.stage = .held then [] else [p.tag]
      | none => []) ++ x.stack.map Stk.tag) ++ (s.port n).retired.map Prod.fst

/-- A free tag of a port; which one is a free value (R227, assumption log entry 1). -/
def State.newTag (s : State) (n : Nat) : Nat :=
  let used := s.tagsUsed n
  let frees := (List.range 4096).filter fun t => !used.contains t
  frees.getD (Config.freeTag s.free % frees.length) 0

/-- Vector address (R221). -/
def vaddrOf (vbase : BitVec 48) (vec : BitVec 16) (stride : Nat) : BitVec 48 :=
  vbase + BitVec.ofNat 48 (vec.toNat * stride)

/-- The world check of R220. -/
def State.worldOk (s : State) (c : Nat) (x : Cand) : Bool :=
  let w := (s.entry x.src).world
  w == ctxWorld c && (match x.grp with
    | some (g, _) => w == (s.grp g).world
    | none => true)

/-- A failed world check: no presentation; the source is masked, or, if sovereign, reported once (R220). -/
def State.worldFail (s : State) (x : Cand) : State :=
  if (s.entry x.src).sov then
    if s.weir.worldErr.contains x.src then s
    else (s.onWeir fun w => { w with worldErr := w.worldErr ++ [x.src] }).failSrc 0x0C x.src 3
  else
    ((s.onEntry x.src fun e => { e with en := false }).maskRow x.src false).failSrc 0x0C x.src 3

/-- Make the presentation of a candidate to a context: Select, tag, PRESENT, RRPTR. -/
def State.present (s : State) (c : Nat) (x : Cand) : State :=
  let e := s.entry x.src
  let k := s.ctx c
  let tag := s.newTag (ctxPort c)
  let t := (s.unlink x.src).setSt x.src .presented
  let t := t.onCtx c fun y =>
    { y with pres := some { stage := .queued, rank := x.rank, tag := tag, src := x.src,
                            grp := x.grp.map Prod.fst, ptmo := k.ptmo, dhold := k.dhold, wantRev := false, sentRev := false,
                            timedOut := false, gone := false } }
  let t := t.pushDown (ctxPort c) false
    (DMsg.of false c e.sov (x.rank - 1) (vaddrOf k.vbase e.vec (bootStride s.img.active)) tag)
  let t := match x.grp with
    | some (g, i) => t.onGrp g fun y => { y with rrptr := i }
    | none => t
  let t := if e.sov then
      t.onWeir fun w => { w with worldErr := w.worldErr.filter (· ≠ x.src) }
    else t
  t.drawn.traceAdd 2 false c tag x.rank x.src

/-- Ask the sluice for a presentation back: OPEN receives its REVOKE, QUEUED after its transfer, HELD makes
its Return at once, and one that a WINDOWED mask has withdrawn without a REVOKE receives it now (R182, R226, R241,
R243). -/
def State.requestRevoke (s : State) (c : Nat) : State :=
  match (s.ctx c).pres with
  | none => s
  | some p =>
    match p.stage with
    | .queued => s.onPres c fun q => { q with wantRev := true }
    | .open_ => (s.onPres c fun q => { q with stage := .revoking }).sendRevoke c
        { p with stage := .revoking } false
    | .held => (s.endPres c).returnRow p.src c p.rank
    | .withdrawn => s.sendRevoke c p false
    | .revoking => s

/-- Hand a group's candidate to a member on another device; a source found in the reserved state is no candidate (R145,
R361). -/
def State.handOff (s : State) (g i : Nat) (m : BitVec 13) (x : Cand) : State :=
  let found := (s.entry x.src).state
  s.onSource x.src fun s =>
  if found = .reserved then s else
  let e := s.entry x.src
  let pl := s.plaOf x.src
  let t := ((s.unlink x.src).setSt x.src .forwarded).onGrp g fun y => { y with rrptr := i }
  let t := t.setFwd x.src (some { dev := routeDev m, proxy := none, grp := some (g, m),
                                  firing := some pl.stamp, held := none, closing := false })
  let t := t.onCas fun k =>
    { k with avail := SMap.upd {} k.avail m.toNat fun a => { a with rank := x.rank } }
  t.sendE2e (routeDev m) e.urgent
    (.proxy 5 (gsrcOf s.dev x.src)
      (({ e with route := m, rmode := false, state := .pending } : Entry).toWord) pl.stamp
      (pretFlags pl true e.trig .idle) 0)

/-! ### The pass (R182, R184, R213, R235) -/

/-- Insert a group with its candidate in the order of R213. -/
def insertGrp (x : Nat × Cand) : List (Nat × Cand) → List (Nat × Cand)
  | [] => [x]
  | y :: l => if y.2.moreUrgent x.2 then y :: insertGrp x l else x :: y :: l

/-- Groups with a candidate, the most urgent first. -/
def State.grpOrder (s : State) : List (Nat × Cand) :=
  (s.weir.queues.filterMap fun p =>
    if 1024 ≤ p.1 then (s.grpCand (p.1 - 1024)).map fun k => (p.1 - 1024, k) else none).foldl
    (fun acc x => insertGrp x acc) []

/-- The router's pass: offers to local contexts, and hand-offs made at once (R212, R213, R361). -/
def State.router (s : State) : State × List (Nat × Cand) :=
  let r := s.grpOrder.foldl (fun (a : State × List (Nat × Cand) × List Nat) gx =>
    let (t, offers, granted) := a
    let g := t.grp gx.1
    match t.pickMember g gx.2 granted with
    | none => a
    | some i =>
      let m := g.members.getD i 0
      if t.isLocal m then
        (t, offers ++ [(routeCtx m, { gx.2 with grp := some (gx.1, i) })],
          ctxPort (routeCtx m) :: granted)
      else (t.handOff gx.1 i m gx.2, offers, granted)) (s, [], [])
  (r.1, r.2.1)

/-- The candidate of a context in a pass: the more urgent of its own and those offered (R181, R183). -/
def State.bestCand (s : State) (offers : List (Nat × Cand)) (c : Nat) : Option Cand :=
  (offers.filter fun o => o.1 == c).foldl (fun best o =>
    match best with
    | none => some o.2
    | some b => if o.2.moreUrgent b then some o.2 else some b) (s.ctxCand c)

/-- The conditions of R182 but the untaken presentation. -/
def State.mayTake (s : State) (c : Nat) (x : Cand) : Bool :=
  let k := s.ctx c
  (k.inUse || s.boot.mode == .safeMinimal) && !(s.port (ctxPort c)).inReset && k.stack.length < 16 &&
    x.rank < k.runRank

/-- Contexts that a pass looks at. -/
def State.passCtxs (s : State) (offers : List (Nat × Cand)) : List Nat :=
  ((s.weir.queues.map Prod.fst).filter (· < 1024) ++ offers.map Prod.fst).eraseDups

/-- What a pass decides for one context: a presentation, or a revoke request made at once; a HELD
presentation is cut short and its candidate presentable (R182, R243). -/
def State.offerTo (a : State × List (Nat × Cand)) (offers : List (Nat × Cand)) (c : Nat) :
    State × List (Nat × Cand) :=
  let s := a.1
  match s.bestCand offers c with
  | none => a
  | some x =>
    if !s.mayTake c x then a
    else
      match (s.ctx c).pres with
      | none => (s, a.2 ++ [(c, x)])
      | some p =>
        if x.rank < p.rank then
          if p.stage = .held then (s.requestRevoke c, a.2 ++ [(c, x)]) else (s.requestRevoke c, a.2)
        else a

/-- Of the contexts of one sluice, the one whose candidate is the most urgent (R184). -/
def bestOfPort (l : List (Nat × Cand)) (n : Nat) : Option (Nat × Cand) :=
  (l.filter fun x => ctxPort x.1 == n).foldl (fun best x =>
    match best with
    | none => some x
    | some b => if x.2.moreUrgent b.2 then some x else some b) none

/-- Present on one sluice, its domain and the source's quadrant being awake; a source found in the reserved state is no
candidate (R145, R184, R220, R377). -/
def State.presentOn (s : State) (l : List (Nat × Cand)) (n : Nat) : State :=
  match bestOfPort l n with
  | none => s
  | some (c, x) =>
    s.withDomains [dDLV n, dARR x.src] 6 fun t =>
      let found := (t.entry x.src).state
      t.onSource x.src fun t =>
        if found = .reserved then t else if t.worldOk c x then t.present c x else t.worldFail x

/-- The priority of an owner's lowest occupied queue (R181). -/
def State.lowestQueue (s : State) (o : Nat) : Nat := ((s.ownerQ o).qs.head?.map Prod.fst).getD 0

/-- A pass uses the head word of an owner's lowest occupied queue (R176, R181). -/
def State.headUsed (s : State) : Upset → Bool
  | .head o p _ => !(s.ownerQ o.toNat).qs.isEmpty && s.lowestQueue o.toNat == p.toNat
  | _ => false

/-- One pass of the Weir and the router; exits of COMPLETING come first (R150). -/
def State.pass (s : State) : State :=
  let t := s.exitsDue
  t.usingWords t.headUsed fun t =>
  let t := t.grps.foldl (fun (u : State) g => u.grpEmptyStep g.1) t
  let (t, offers) := t.router
  let (t, l) := (t.passCtxs offers).foldl (fun a c => State.offerTo a offers c) (t, [])
  (List.range 16).foldl (fun u n => u.presentOn l n) t

/-- What a pass takes in: every owner's candidate, the contexts' running ranks and free stack entries, and the ports in
reset (R181, R184, R197). -/
def State.passInputs (s : State) : PassIns :=
  { cands := s.weir.queues.filterMap fun q =>
      (if q.1 < 1024 then s.ctxCand q.1 else s.grpCand (q.1 - 1024)).map fun x =>
        { owner := q.1, src := x.src, rank := x.rank, stamp := x.stamp }
    runs := s.ctxs.map fun q => (q.1, q.2.runRank, 16 - q.2.stack.length)
    resets := (List.range 16).filter fun n => (s.port n).inReset }

/-- The eddy register takes the inputs of a pass (R197). -/
def State.noteInputs (s : State) : State :=
  s.onWeir fun w => { w with eddy := (s.passInputs :: w.eddy).take 4 }

/-- A decision of the Weir with the outcome of its lockstep compare: a replay applies the same decision, a second
mismatch discards it and begins the self-test; a fenced copy is not compared (R197 to R200). `missed`: the instant
since when visits are due again after the self-test. -/
def State.compared (s : State) (c : Compare) (missed : Tick) (f : State → State) : State :=
  match s.weir.mode with
  | .selftest => s
  | .failed => s
  | .lockstep =>
    match c with
    | .equal => f s
    | .replayEqual => f (s.onWeir fun w => { w with replays := satInc 16 w.replays })
    | .replayFails => s.onWeir fun w =>
        { w.pause missed with mode := .selftest, replays := satInc 16 w.replays, selftests := satInc 16 w.selftests }
  | _ => f s

/-! ### The scoreboard that summaries report (R359) -/

/-- A member context may take a handed-off proxy (R210, R361). -/
def State.memberOk (s : State) (c : Nat) : Bool :=
  (s.ctx c).inUse && !(s.port (ctxPort c)).inReset && !(s.ctx c).grpOut && s.sliceActive (s.ctx c).slice

/-- A local context is a member of some cascade-wide group that passes a test. -/
def State.inWide (s : State) (c : Nat) (ok : Grp → Bool) : Bool :=
  s.grps.any fun g => g.2.defined && g.2.cascadeWide && ok g.2 && g.2.members.contains (mkRoute s.dev c)

/-- Local contexts of cascade-wide groups. -/
def State.wideCtxs (s : State) : List Nat :=
  if s.grps.any fun g => g.2.defined && g.2.cascadeWide then
    (List.range 1024).filter fun c => s.inWide c fun _ => true
  else []

/-- The availability reported for a local context, whose own device checks the group's world. -/
def State.summaryAvail (s : State) (c : Nat) : Nat :=
  if !s.memberOk c || !(s.inWide c fun g => g.world == ctxWorld c) || 16 ≤ (s.ctx c).stack.length then 511
  else s.availOf c

/-- Contexts whose availability is not what was noted last join those to report, oldest change first (R359). -/
def State.noteAvail (s : State) : State :=
  (s.wideCtxs).foldl (fun t c =>
    let a := s.summaryAvail c + 1
    if SMap.get 0 t.cas.noted c = a then t
    else t.onCas fun k =>
      { k with noted := SMap.set 0 k.noted c a,
               changed := if k.changed.contains c then k.changed else k.changed ++ [c] }) s

/-- A pass with the outcome of its lockstep compare; the visits that are due come before it, and it renews the scoreboard
(R194, R359). -/
def State.comparedPass (s : State) (c : Compare) : State :=
  s.noteInputs.compared c s.now fun t => t.catchUp.pass.noteAvail

/-- The pass that belongs to an accepted answer or COMPLETE (R233, R235); during a self-test the selection
waits for the first pass after it (R199). -/
def State.ownPass (s : State) (c : Compare) : State :=
  if s.weirRuns && !s.fatal.inSeq then s.withDomains [dWEIR] 6 fun t => t.comparedPass c else s

end Sys2Proof.Machine
end

