-- ==== Sys2Proof/Machine/Sluice.lean ====
section
/-!
DEFINITION. The sluices: transfers, answers, completions, holds, timeouts, retired tags, port reset, and the
completion log (R30 to R37, R76, R77, R171 to R174, R221 to R250).
-/

namespace Sys2Proof.Machine

/-! ### The completion log (R171 to R174, R287) -/

/-- Bytes that a running save or restore has yet to move, as far as its length is known. -/
def Slc.xferLeft (x : Slc) : Nat := if x.xfer = .save || x.xfer = .restore then x.xferTot - x.xferBytes else 0

/-- Entries of the shared log buffer that belong to a slice. -/
def State.logOf (s : State) (i : Nat) : List LogRec := s.slog.filter fun r => r.slice == i

/-- LAP of the `k`-th entry from NEXT of a ring of `len` entries (R172). -/
def lapAt (l : SlcLog) (len k : Nat) : Bool := l.lap != ((l.next + k) / len % 2 == 1)

/-- Ring length: LOG_LEN, held at 16,777,216 (R172). -/
def Slc.ringLen (x : Slc) : Nat := min x.info.logLen 16777216

/-- Log writes of a slice that are under way. -/
def State.logsOut (s : State) (i : Nat) : Nat := s.mem.logs.countP fun x => x == some i

/-- A slice has a log entry whose write has not been made, and 64 writes are not outstanding (R27, R173). -/
def State.logWaits (s : State) (i : Nat) : Bool := s.logsOut i < (s.logOf i).length && s.mem.logs.length < 64

/-- A slice has a memory transaction to make: a log write, or the next one of its transfer (R287). -/
def State.memWaits (s : State) (i : Nat) : Bool := s.logWaits i || (s.slc i).xferLeft ≠ 0

/-- A slice becomes ready after it had no transaction ready: its virtual tag takes the present virtual time (R285,
R287). -/
def State.memReady (s : State) (i : Nat) : State :=
  if s.memWaits i then s
  else s.onSlc i fun y => { y with memVt := vtMax y.memVt s.cfl.memVnow, memLast := s.now }

/-- Count a completion of a source and log it; a full buffer drops the entry (R171 to R173). -/
def State.logCompletion (s : State) (n c : Nat) (stamp : BitVec 32) : State :=
  match s.sourceSlice n with
  | none => s
  | some i =>
    let t := s.onSlcCnt i fun k => { k with cpl := k.cpl + 1 }
    let x := s.slc i
    if x.ringLen = 0 || !x.log.en then t
    else if 256 ≤ s.slog.length then t.onSlc i fun y => { y with log := { y.log with dropped := satInc 32 y.log.dropped } }
    else
      let num := s.localNum i n
      let lap := lapAt x.log x.ringLen (s.logOf i).length
      let r : LogRec :=
        { slice := i, ctick := pack [(63, 1, b2n num.1), (0, 63, s.stampSclk.toNat)], astamp := stamp,
          src := BitVec.ofNat 32 (b2n lap * 2 ^ 31 + c * 2 ^ 21 + num.2) }
      ((t.memReady i).onSlog fun l => l ++ [r]).drawn

/-- Slices with a memory transaction to make, in ascending number. -/
def State.memSlices (s : State) : List Nat := (s.slcs.filter fun p => s.memWaits p.1).map Prod.fst

/-- The slice without delivery weight that has waited 1 ms for a grant, the longest first (R287). -/
def State.memDue (s : State) (l : List Nat) : Option Nat :=
  (l.filter fun i => (s.slc i).live.dweight = 0 && (s.slc i).memLast.toNat + 4000000 ≤ s.now.toNat).foldl
    (fun best i => match best with
      | none => some i
      | some b => if (s.slc i).memLast < (s.slc b).memLast then some i else some b) none

/-- The slice whose memory transaction is granted next: the scheme of R285 with DWEIGHT (R287). -/
def State.grantMem (s : State) : Option (Nat × State) :=
  let l := s.memSlices
  let g : Option (Nat × State) :=
    match s.memDue l with
    | some i => some (i, s)
    | none =>
      match lowestTag (fun i => (s.slc i).memVt) (l.filter fun i => 0 < (s.slc i).live.dweight) with
      | some i =>
        let v := (s.slc i).memVt + BitVec.ofNat 32 (65536 / (s.slc i).live.dweight)
        some (i, (s.onSlc i fun y => { y with memVt := v }).onCfl fun c => { c with memVnow := v })
      | none => (nextRound s.cfl.memNext l).map fun i => (i, s.onCfl fun c => { c with memNext := i })
  g.map fun x => (x.1, x.2.onSlc x.1 fun y => { y with memLast := s.now })

/-- One transaction of a slice's save or restore (R287, R295). -/
def State.moveXfer (s : State) (i : Nat) : State :=
  let x := s.slc i
  let at_ := x.runAddr + BitVec.ofNat 48 x.xferBytes
  let k := txLen at_ x.xferLeft
  let data := match x.saveImg with
    | some m => if x.xfer = .save then ((saveBytes m).drop x.xferBytes).take k else []
    | none => []
  (s.sliceRequest i (x.xfer = .save) at_ k data).onSlc i fun y => { y with xferBytes := y.xferBytes + k }

/-- The 16 bytes of a log entry (R172). -/
def LogRec.bytes (r : LogRec) : List (BitVec 8) := bytesLE 8 r.ctick ++ bytesLE 4 r.astamp ++ bytesLE 4 r.src

/-- The next log write of a slice: its oldest entry whose write has not been made, at its index of the ring (R172). -/
def State.writeLog (s : State) (i : Nat) : State :=
  let x := s.slc i
  let k := s.logsOut i
  let idx := (x.log.next + k) % max 1 x.ringLen
  let t := s.sliceRequest i true (x.log.addr + BitVec.ofNat 48 (16 * idx)) 16
    (((s.logOf i)[k]?).map LogRec.bytes |>.getD [])
  t.onMem fun m => { m with logs := m.logs ++ [some i] }

/-- The port serves the slices: not while the block starts, nor once a fatal sequence has begun (R67, R402). One memory
transaction of a slice is granted and made; its log write goes before its transfer's transaction (R287). -/
def State.memStep (s : State) : Option (Nat × State) :=
  if !s.serving then none
  else s.grantMem.map fun (i, t) => (i, if t.logWaits i then t.writeLog i else t.moveXfer i)

/-- A tick of the port: one transaction. When the port makes a transaction no rule says to the cycle: here one in every
step on an empty queue, and those that must have come before a response (DESIGN CHOICE, assumption log entry 70). -/
def State.memTick (s : State) : State := (s.memStep.map Prod.snd).getD s

/-- Transactions that wait, at most. -/
def State.memDemand (s : State) : Nat := s.slog.length + (s.slcs.map fun p => p.2.xferLeft).sum + 1

/-- Transactions are granted until a log write is under way (R173, R287). -/
def State.untilLog : Nat → State → State
  | 0, s => s
  | k + 1, s =>
    if !s.mem.logs.isEmpty then s
    else match s.memStep with
      | some (_, t) => State.untilLog k t
      | none => s

/-- Transactions are granted until a transfer has moved `total` bytes (R287, R295). -/
def State.untilMoved (i total : Nat) : Nat → State → State
  | 0, s => s
  | k + 1, s =>
    if total ≤ (s.slc i).xferBytes then s
    else match s.memStep with
      | some (_, t) => State.untilMoved i total k t
      | none => s

/-- The last transactions of a transfer of `total` bytes are granted and made, among those of the other slices (R287,
R295). -/
def State.finishXfer (s : State) (i total : Nat) : State :=
  let t := s.onSlc i fun x => { x with xferTot := total }
  (State.untilMoved i total t.memDemand t).onSlc i fun x => { x with xferBytes := total }

/-- The transfer has made a transaction at least, whose response is FAULT. -/
def State.failXfer (s : State) (i : Nat) : State := State.untilMoved i (min 1 (s.slc i).xferTot) s.memDemand s

/-- Remove the oldest entry of a slice from the buffer. -/
def dropOldest (i : Nat) : List LogRec → List LogRec
  | [] => []
  | r :: l => if r.slice = i then l else r :: dropOldest i l

/-- NEXT advances past a written entry; LAP alternates at the wrap (R172, R173). -/
def SlcLog.advance (l : SlcLog) (len : Nat) : SlcLog :=
  if l.next + 1 < len then { l with next := l.next + 1 } else { l with next := 0, lap := !l.lap }

/-- The writes under way for a slice's log entries belong to no entry any more. -/
def State.forgetLogs (s : State) (i : Nat) : State :=
  s.onMem fun m => { m with logs := m.logs.map fun x => if x == some i then none else x }

/-- The response of the oldest log write under way: NEXT advances, or on FAULT the ring stops and what waits for it is
dropped (R173). -/
def State.logResponse (s : State) (r : MemEnd) : State :=
  let t := State.untilLog s.memDemand s
  match t.mem.logs with
  | [] => t
  | none :: l => t.onMem fun m => { m with logs := l }
  | some i :: l =>
    let t := t.onMem fun m => { m with logs := l }
    if r.ok then
      (t.onSlog (dropOldest i)).onSlc i fun y => { y with log := y.log.advance y.ringLen }
    else
      let k := (t.logOf i).length
      ((t.forgetLogs i).onSlog fun l => l.filter fun r => r.slice ≠ i).onSlc i fun y =>
        { y with log := { y.log with en := false, fault := true, dropped := satAdd 32 y.log.dropped k } }

/-- The new ring base takes effect once no entry of the slice is buffered (R174). -/
def State.logSwitch (s : State) (i : Nat) : State :=
  match (s.slc i).log.newBase with
  | none => s
  | some v =>
    if (s.logOf i).isEmpty then
      s.onSlc i fun y => { y with log :=
        { y.log with addr := BitVec.ofNat 48 (fld v 5 43 * 32), en := bit v 0, newBase := none,
                     next := 0, lap := true } }
    else s

/-! ### RRPTR after a declined or timed-out group presentation (R214) -/

/-- RRPTR moves to the member that holds a group's presentation, if it is still in the list. -/
def State.rrToMember (s : State) (g : Option Nat) (c : Nat) : State :=
  match g with
  | none => s
  | some g =>
    let m := mkRoute s.dev c
    if (s.grp g).members.contains m then s.onGrp g fun x => { x with rrptr := x.members.idxOf m } else s

/-! ### Downstream transfers (R223, R226, R247) -/

/-- The message at the head of a port has transferred. -/
def State.popDown (s : State) (n : Nat) (m : DMsg) : State :=
  s.onPort n fun x => { x with down := x.down.drop 1, last := some m, dstall := false }

/-- A PRESENT transfers: the presentation is OPEN, or, asked back or left by its source meanwhile, its
REVOKE follows at once (R223, R226, R240). -/
def State.presentTransfers (s : State) (n : Nat) : State :=
  match (s.port n).down with
  | m :: _ =>
    if m.revoke then s
    else
      let t := s.popDown n m
      if s.fatal.inSeq then t
      else
        match (t.ctx m.ctx).pres with
        | some p =>
          if p.stage = .queued && p.tag = m.tag then
            let st : PStage := if p.gone then .withdrawn else if p.wantRev then .revoking else .open_
            let q := { p with stage := st, gone := false }
            let t := t.onCtx m.ctx fun x =>
              { x with pres := some q,
                       cnt := if p.gone then { x.cnt with withdrawn := satInc 16 x.cnt.withdrawn } else x.cnt }
            if p.wantRev then t.sendRevoke m.ctx q true else t
          else t
        | none => t
  | [] => s

/-- A REVOKE transfers (R225). -/
def State.revokeTransfers (s : State) (n : Nat) : State :=
  match (s.port n).down with
  | m :: _ => if m.revoke then s.popDown n m else s
  | [] => s

/-- A message has waited on the port for its context's PTMO: DSTALL, once (R247). -/
def State.stall (s : State) (n : Nat) : State :=
  match (s.port n).down with
  | m :: _ =>
    if (s.port n).dstall then s
    else (s.onPort n fun x => { x with dstall := true }).failCtx 0x0F m.ctx (2 ^ 15 + m.tag)
  | [] => s

/-! ### Upstream messages (R33, R228, R290) -/

/-- What becomes of an upstream message: on the port, and once the sluice takes it from the upstream queue. -/
inductive UpFate where
  | lost
  | waits
  | uqFull
  | parity
  | frozen
  | applies
  deriving DecidableEq, Repr

/-- Context of an upstream message. -/
def upCtx (u : UpMsg) : Nat := u.port.toNat * 64 + u.ctx.toNat

/-- Whether the slice of a context is FROZEN or RESTORING (R290). -/
def State.frozenCtx (s : State) (c : Nat) : Bool := (s.ctxSlice c).any s.frozenSlice

/-- Messages that a port's upstream queue and its FIFO hold (R57, R58, R228). -/
def upqDepth : Nat := 1152 + 8

/-- Whether an upstream message transfers and enters the upstream queue (`applies`), or what becomes of it instead (R32,
R36, R67, R228, R386, R437). -/
def State.upArrives (s : State) (u : UpMsg) : UpFate :=
  let n := u.port.toNat
  if !(s.port n).uReady || (s.port n).inReset then .waits
  else if !s.serving then .lost
  else if !(s.touch [dDLV n]).avail (dDLV n) then .waits
  else if upqDepth ≤ (s.port n).upq.length then .uqFull
  else .applies

/-- The first condition that holds for a message that the sluice takes from the queue (R33, R228, R290). -/
def State.upTaken (s : State) (u : UpMsg) : UpFate :=
  if !u.parOk || u.badOp then .parity
  else if s.frozenCtx (upCtx u) then .frozen
  else .applies

/-- A discarded upstream message is counted once (R33, R67, R228, R290, R437); `op` is its DLVn_U_OP. -/
def State.upDiscard (s : State) (u : UpMsg) (op : Nat) (f : UpFate) : State :=
  let c := upCtx u
  match f with
  | .lost =>
    if s.boot.mode = .starting && s.boot.crst then s.onBoot fun b => { b with refusedUp := b.refusedUp + 1 }
    else if s.fatal.inSeq then s.late else s
  | .waits => if (s.port u.port.toNat).uReady then s.wakeFor [dDLV u.port.toNat] 4 else s
  | .uqFull =>
    (s.onSaf fun x => { x with uqDrop := satInc 16 x.uqDrop }).failCtx 0x0E c (1 * 4096 + u.tag.toNat)
  | .parity =>
    (s.onSaf fun x => { x with parity := satInc 16 x.parity }).failCtx 0x0D c (if u.badOp then 0 else op)
  | .frozen =>
    let t := match s.ctxSlice c with
      | some i => s.onSlc i fun y => { y with frozenMsg := satInc 16 y.frozenMsg }
      | none => s
    t.failCtx 0x0E c (4 * 4096 + u.tag.toNat)
  | .applies => s

/-- A TAKE or DECLINE that names no presentation it may answer (R237). -/
def State.badAnswer (s : State) (c tag : Nat) : State :=
  (s.onDlvCnt c fun k => { k with badans := satInc 16 k.badans }).failCtx 0x0E c (3 * 4096 + tag)

/-- Push a taken delivery; CLEAN of the context's slice no longer holds (R229, R280). -/
def State.pushStk (s : State) (c : Nat) (e : Stk) : State :=
  let s := match s.ctxSlice c with
    | some i => s.onSlc i fun x => { x with clean := false }
    | none => s
  s.onCtx c fun x =>
    { x with stack := e :: x.stack, pres := none,
             cnt := { x.cnt with takes := satInc 32 x.cnt.takes,
                                 void := if e.void then satInc 16 x.cnt.void else x.cnt.void } }

/-- Row "TAKE" of PRESENTED, which ends a WINDOWED mask in progress (R149, R151). -/
def State.takeSrc (s : State) (n : Nat) : State :=
  s.onSource n fun t =>
    (if (t.entry n).state = .presented then t.setSt n .active else t).onArr
      fun a => { a with masked := a.masked.filter fun m => m ≠ n }

/-- An accepted TAKE (R232, R237). -/
def State.takeRow (s : State) (c tag : Nat) : State :=
  match (s.ctx c).pres with
  | none => s.badAnswer c tag
  | some p =>
    if p.tag ≠ tag then s.badAnswer c tag
    else
      let stk (v : Bool) : Stk :=
        { void := v, rank := p.rank, tag := tag, src := p.src, stamp := (s.plaOf p.src).stamp }
      match p.stage with
      | .queued => s.badAnswer c tag
      | .held => s.badAnswer c tag
      | .withdrawn => (s.pushStk c (stk true)).traceAdd 3 true c tag p.rank p.src
      | _ => ((s.pushStk c (stk false)).takeSrc p.src).traceAdd 3 false c tag p.rank p.src

/-- An accepted DECLINE (R214, R232, R237, R241, R243, R244). -/
def State.declineRow (s : State) (c tag : Nat) : State :=
  match (s.ctx c).pres with
  | none => s.badAnswer c tag
  | some p =>
    if p.tag ≠ tag then s.badAnswer c tag
    else
      match p.stage with
      | .queued => s.badAnswer c tag
      | .held => s.badAnswer c tag
      | .withdrawn =>
        (((s.onDlvCnt c fun k => { k with declines := satInc 16 k.declines }).endPres c).traceAdd
          4 false c tag p.rank p.src).rrToMember p.grp c
      | .revoking =>
        let t := (s.onDlvCnt c fun k => { k with declines := satInc 16 k.declines }).traceAdd
          4 false c tag p.rank p.src
        ((t.endPres c).rrToMember p.grp c).returnRow p.src c p.rank
      | .open_ =>
        let t := (s.onDlvCnt c fun k => { k with declines := satInc 16 k.declines }).traceAdd
          4 false c tag p.rank p.src
        let t := t.rrToMember p.grp c
        if s.arr.masked.contains p.src || p.dhold = 0 then
          (t.endPres c).returnRow p.src c p.rank
        else t.onPres c fun q => { q with stage := .held, tag := 0 }

/-- A COMPLETE of a delivery that is not the context's top entry (R236). -/
def State.completeIgnored (s : State) (c tag : Nat) : State :=
  let x := s.ctx c
  if x.stack.any fun e => e.tag == tag then
    (s.onDlvCnt c fun k => { k with order := satInc 16 k.order }).failCtx 0x0E c (2 * 4096 + tag)
  else
    let t := s.onDlvCnt c fun k => { k with stray := satInc 16 k.stray }
    let flagged := match s.ctxSlice c with
      | some i => (s.slc i).info.strayRaise
      | none => false
    if flagged then t.note 0x22 1003 (s.ctxSlice c) 2 c tag
    else t.logErr 0x22 (s.ctxSlice c) 2 c tag

/-- The source part of an accepted COMPLETE: COMPLETING, counted, logged, and its exit (R149, R171,
R238). -/
def State.completeSrc (s : State) (c : Nat) (e : Stk) : State :=
  s.onSource e.src fun s =>
  let st := (s.entry e.src).state
  if st = .active || st = .activePending then
    ((s.setSt e.src .completing).logCompletion e.src c e.stamp).exitRow e.src (st = .activePending)
  else s

/-- An accepted COMPLETE (R236). -/
def State.completeRow (s : State) (c tag : Nat) : State :=
  match (s.ctx c).stack with
  | [] => s.completeIgnored c tag
  | e :: rest =>
    if e.tag = tag then
      let t := (s.onCtx c fun x => { x with stack := rest }).traceAdd 7 e.void c tag e.rank e.src
      if e.void then t else t.completeSrc c e
    else s.completeIgnored c tag

/-- The row of an accepted message by its DLVn_U_OP: 1 TAKE, 2 DECLINE, 3 COMPLETE (R236, R237). -/
def State.upRow (s : State) (op c tag : Nat) : State :=
  match op with
  | 1 => s.takeRow c tag
  | 2 => s.declineRow c tag
  | _ => s.completeRow c tag

/-- The source whose entry a message updates: of the context's presentation, or of its top delivery. -/
def State.upSrc (s : State) (op c : Nat) : Option Nat :=
  if op = 3 then (s.ctx c).stack.head?.map Stk.src else (s.ctx c).pres.map Pres.src

/-- What the accesses of a message's update find; without a source it makes none (R163, R176). -/
def State.upRead (s : State) (e : UpEnt) : State × Bool :=
  match s.upSrc e.op (upCtx e.msg) with
  | some n => s.arrayRead n e.msg.acc s.now
  | none => (s, true)

/-- The sluice applies a message, with the pass that its acceptance calls for; an entry that cannot be recovered is
neither used nor written (R164, R228, R232, R235). -/
def State.applyUp (s : State) (e : UpEnt) : State :=
  match s.upTaken e.msg with
  | .applies =>
    let (t, ok) := s.upRead e
    if ok then (t.upRow e.op (upCtx e.msg) e.msg.tag.toNat).ownPass e.msg.cmp else t
  | f => s.upDiscard e.msg e.op f

/-- Domains that a message needs beside its port's: what it changes lies in its source's quadrant and the Weir; one that
is discarded needs none (R377). -/
def State.upNeeds (s : State) (e : UpEnt) : List Nat :=
  match s.upTaken e.msg with
  | .applies => dWEIR :: ((s.upSrc e.op (upCtx e.msg)).map dARR).toList
  | _ => []

/-- The sluice takes the oldest message of a port's upstream queue, once the domains that it needs serve (R228, R377,
R386, R402). -/
def State.acceptUp (s : State) (n : Nat) : State :=
  match (s.port n).upq with
  | [] => s
  | e :: rest =>
    if !s.serving then s else
    let ds := dDLV n :: s.upNeeds e
    let t := s.touch ds
    if t.allAvail ds then (t.onPort n fun x => { x with upq := rest }).applyUp e else t.wakeAgain ds

/-- The sluice takes every message of a port's upstream queue, in transfer order. -/
def State.drainUp (s : State) (n : Nat) : State :=
  (List.range (s.port n).upq.length).foldl (fun t _ => t.acceptUp n) s

/-- A message enters the upstream queue; one that needs a domain of a commit is its wake event (R228, R383). -/
def State.upEnters (s : State) (n : Nat) (e : UpEnt) : State :=
  let t := (s.touch [dDLV n]).onPort n fun x => { x with upq := x.upq ++ [e] }
  match (t.upNeeds e).find? t.committing with
  | some d => t.eddyLatch 4 d
  | none => t

/-- An upstream message on its port: it transfers into the upstream queue; unless the sluice is busy in this SCLK cycle,
it takes what the queue holds, before the message and up to it (R228). -/
def State.upstream (s : State) (u : UpMsg) (op : Nat) : State :=
  let n := u.port.toNat
  let s := if u.busy then s else s.drainUp n
  match s.upArrives u with
  | .applies =>
    let t := s.upEnters n { op := op, msg := u }
    if u.busy then t else t.drainUp n
  | f => s.upDiscard u op f

/-- Every sluice goes on with its upstream queue (R228, R386). -/
def State.drainUps (s : State) : State := (List.range 16).foldl (fun t n => t.drainUp n) s

/-- Every sluice takes one message of its upstream queue (R228). -/
def State.acceptUps (s : State) : State := (List.range 16).foldl (fun t n => t.acceptUp n) s

/-! ### Holds, windows, timeouts (R241, R243, R245, R246) -/

/-- A decline hold runs out: the held presentation makes its Return (R243). -/
def State.holdExpires (s : State) (c : Nat) : State :=
  match (s.ctx c).pres with
  | some p => if p.stage = .held then (s.endPres c).returnRow p.src c p.rank else s
  | none => s

/-- The window of a WINDOWED mask ends without a TAKE (R151, R241). -/
def State.maskExpires (s : State) (n : Nat) : State :=
  if s.arr.masked.contains n then
    (s.onArr fun a => { a with masked := a.masked.filter fun m => m ≠ n }).onSource n fun t =>
      if (t.entry n).state = .presented && !(t.entry n).en then t.maskRow n false else t
  else s

/-- Whether a presentation has transferred and is not answered. -/
def Pres.awaits (p : Pres) : Bool := p.stage = .open_ || p.stage = .revoking || p.stage = .withdrawn

/-- PTMO runs out unanswered (R245). -/
def State.presTimeout (s : State) (c : Nat) : State :=
  match (s.ctx c).pres with
  | some p =>
    if p.awaits && !p.timedOut then
      let q : Pres := { p with timedOut := true,
                               stage := if p.stage = .open_ then .revoking else p.stage }
      let t := s.onCtx c fun x => { x with pres := some q,
                                           cnt := { x.cnt with timeouts := satInc 16 x.cnt.timeouts } }
      ((t.failCtx 0x0F c p.tag).sendRevoke c q false).rrToMember p.grp c
    else s
  | none => s

/-- Retire a tag of a port with the PTMO it was held under (R246). -/
def State.retireTag (s : State) (n tag ptmo : Nat) : State :=
  s.onPort n fun x => { x with retired := x.retired ++ [(tag, ptmo)] }

/-- Twice the timeout has passed without an answer (R246). -/
def State.presRetire (s : State) (c : Nat) : State :=
  match (s.ctx c).pres with
  | some p =>
    if p.awaits && p.timedOut then
      let t := ((s.onDlvCnt c fun k => { k with retired := satInc 16 k.retired }).retireTag
        (ctxPort c) p.tag p.ptmo).endPres c
      if p.stage = .withdrawn then t else t.returnRow p.src c p.rank
    else s
  | none => s

/-- A retired tag is free again (R246). -/
def State.freeRetired (s : State) (n tag : Nat) : State :=
  s.onPort n fun x => { x with retired := x.retired.filter fun r => r.1 ≠ tag }

/-! ### Port reset (R76, R77) -/

/-- Release the source of a taken delivery as a port reset does (R76). -/
def State.releaseSrc (s : State) (n : Nat) : State :=
  s.onSource n fun s => match (s.entry n).state with
    | .active => s.exitRow n false
    | .activePending => s.exitRow n true
    | _ => s

/-- A release by a port reset, which counts an ACTIVE edge or message source in ABANDONED (R76, R249). -/
def State.abandonSrc (s : State) (n c : Nat) : State :=
  let e := s.entry n
  let t := s.releaseSrc n
  if e.state = .active && !e.trig then t.onDlvCnt c fun k => { k with abandoned := satInc 16 k.abandoned } else t

/-- Reset one context of a port: its presentation makes its Return, its deliveries are released, its stack
emptied (R76); nothing changes the stacks of a slice that is FROZEN or RESTORING (R290). -/
def State.resetCtx (s : State) (c : Nat) : State :=
  if s.frozenCtx c then s
  else
  let x := s.ctx c
  let t := s.onCtx c fun y => { y with pres := none, stack := [] }
  let t := match x.pres with
    | some p => if p.stage = .withdrawn || p.gone then t else t.returnRow p.src c p.rank
    | none => t
  x.stack.foldl (fun u e => if e.void then u else u.abandonSrc e.src c) t

/-- DLVn_CRST_N falls (R76): nothing the port offered has transferred, every tag is free. -/
def State.resetPort (s : State) (n : Nat) : State :=
  let t := s.onPort n fun x => { x with inReset := true, uReady := false, down := [], dstall := false,
                                        retired := [], upq := [] }
  (portCtxs n).foldl State.resetCtx t

end Sys2Proof.Machine
end

