-- ==== Sys2Proof/Machine/Slices.lean ====
section
/-!
DEFINITION. Slice commands, the purge, freeze, save and restore, shares (R271 to R295).
-/

namespace Sys2Proof.Machine

/-! ### Result codes (R281) -/

def resDone : Nat := 0x00
def resNotQuiesced : Nat := 0x01
def resStagePinned : Nat := 0x02
def resBusy : Nat := 0x03
def resBadState : Nat := 0x04
def resNotManager : Nat := 0x05
def resHasWired : Nat := 0x06
def resForeign : Nat := 0x07
def resCascade : Nat := 0x08
def resMemFault : Nat := 0x09
def resImageBad : Nat := 0x0A
def resVersion : Nat := 0x0B
def resShape : Nat := 0x0C
def resTagConflict : Nat := 0x0D
def resNotClean : Nat := 0x0E
def resLength : Nat := 0x0F
def resBadCmd : Nat := 0x10

/-- Change what a slice owns of SLC_ST. -/
def State.setSlcState (s : State) (i : Nat) (st : SlcState) : State := s.onSlc i fun x => { x with state := st }

/-! ### The purge (R288) -/

/-- Count discarded firings. -/
def State.purgedAdd (s : State) (i k : Nat) : State :=
  s.onSlc i fun x => { x with purged := satAdd 16 x.purged k }

/-- A held link frame is for a source of the slice; an OPEN or HANDOFF makes its proxy yet, which the purge of its
context ends (R288 step 1, R358). -/
def State.frameOfSlice (s : State) (i : Nat) (f : Frame) : Bool :=
  match f.body with
  | .event _ g _ _ => (s.findProxy g.toNat).any fun n => (s.entry n).slice.toNat == i
  | .proxy op g _ _ _ _ => op ≠ 1 && op ≠ 5 && (s.findProxy g.toNat).any fun n => (s.entry n).slice.toNat == i
  | .pret _ _ g _ _ _ => g.toNat / 2 ^ 21 == s.dev && s.sourceSlice (g.toNat % 2 ^ 21) == some i
  | _ => false

/-- The link frames held for the slice's sources keep their place in the E2E order and their acknowledgement, and ask
nothing more (R288 step 1). -/
def State.purgeFrames (s : State) (i : Nat) : State :=
  let k := (s.cas.e2e.map fun p => (p.2.held.filter (s.frameOfSlice i)).length).sum
  (s.onCas fun c =>
    { c with e2e := SMap.mapVals {} (fun _ e =>
        { e with held := e.held.map fun f => if s.frameOfSlice i f then { f with body := .ack 0 } else f }) c.e2e }
    ).purgedAdd i k

/-- Step 1: firings of the slice in resolution, held link frames, a running transfer, RANGE expansions under way. A
SINGLE that waits for an entry meets the closed slice when its turn comes (R22). -/
def State.purge1 (s : State) (i : Nat) : State :=
  let mine (f : Firing) : Bool := match f.ent with
    | some w => w.slice == i
    | none => false
  let k := (s.cfl.res.filter mine).length
  let t := ((s.onCfl fun c => { c with res := c.res.filter fun f => !mine f }).purgedAdd i k).purgeFrames i
  let t := t.onSlc i fun x => { x with xfer := .none }
  let exp (w : DbWait) : Bool := w.checked && w.range && w.slice == i
  let t := (s.cfl.dbWait.filter exp).foldl
    (fun u w => (u.purgedAdd i (w.count - w.next)).dbAnswer w.req.port w.req.tag false) t
  t.onCfl fun c =>
    { c with dbWait := (c.dbWait.filter fun w => !exp w).map fun w =>
               if w.slice = i then { w with checked := false } else w }

/-- Step 2: waiting and spilled firings, buffered log entries. -/
def State.purge2 (s : State) (i : Nat) : State :=
  let k := (s.cfl.window.filter fun w => w.slice == i).length
  let t := (s.onCfl fun c => { c with window := c.window.filter fun w => w.slice != i }).purgedAdd i k
  let d := (s.logOf i).length
  ((t.forgetLogs i).onSlog fun l => l.filter fun r => r.slice != i).onSlc i fun x =>
    { x with log := { x.log with dropped := satAdd 32 x.log.dropped d } }

/-- Put a REVOKE straight behind the PRESENT of its tag. -/
def revokeBehind (c tag : Nat) : List DMsg → List DMsg
  | [] => []
  | m :: l => if !m.revoke && m.ctx == c && m.tag == tag then m :: revokeMsg c tag :: l
              else m :: revokeBehind c tag l

/-- End one untaken presentation in a purge: REVOKE as its stage allows, tag retired, a source outside the
pool Returned (R288 step 3). -/
def State.purgePres (s : State) (i c : Nat) (p : Pres) : State :=
  let n := ctxPort c
  let t := s.endPres c
  let t := match p.stage with
    | .open_ => (t.onDlvCnt c fun k => { k with revokes := satInc 16 k.revokes }).pushDown n false
        (revokeMsg c p.tag)
    | .queued => (t.onDlvCnt c fun k => { k with revokes := satInc 16 k.revokes }).onPort n fun x =>
        { x with down := revokeBehind c p.tag x.down }
    | _ => t
  let t := if p.stage = .held then t else t.retireTag n p.tag p.ptmo
  if p.stage = .withdrawn || p.gone || s.inPool i p.src then t else t.returnRow p.src c p.rank

/-- Step 3: untaken presentations of the slice's sources and to its contexts, those that their source has left among
them (R223). -/
def State.purge3 (s : State) (i : Nat) : State :=
  s.ctxs.foldl (fun t q =>
    match q.2.pres with
    | some p =>
      if (q.2.inUse && q.2.slice == i) || s.sourceSlice p.src == some i then t.purgePres i q.1 p else t
    | none => t) s

/-- Step 4: the stacks of the slice's contexts are emptied, their tags retired, sources outside the pool
released. -/
def State.purge4 (s : State) (i : Nat) : State :=
  (s.ctxsOf i).foldl (fun t c =>
    let x := t.ctx c
    let t := t.onCtx c fun y => { y with stack := [] }
    x.stack.foldl (fun u e =>
      let u := u.retireTag (ctxPort c) e.tag x.ptmo
      if e.void || s.inPool i e.src then u else u.releaseSrc e.src) t) s

/-- Step 5: deliveries of the slice's sources on contexts of other slices become VOID; a source outside the
pool is released. -/
def State.purge5 (s : State) (i : Nat) : State :=
  s.ctxs.foldl (fun t q =>
    let hit (e : Stk) : Bool := !e.void && s.sourceSlice e.src == some i
    if q.2.stack.any hit then
      let t := t.onCtx q.1 fun y =>
        { y with stack := y.stack.map fun e => if hit e then { e with void := true } else e }
      (q.2.stack.filter hit).foldl (fun u e => if s.inPool i e.src then u else u.releaseSrc e.src) t
    else t) s

/-- The proxies of the slice's contexts go back to their homes (R358). -/
def State.purgeProxies (s : State) (i : Nat) : State :=
  s.cas.proxies.foldl (fun t p =>
    if p.2.live && (t.entry p.1).slice.toNat == i then
      match (t.entry p.1).state with
      | .pending => t.endProxy p.1 3 .pending true
      | _ => t.endProxy p.1 3 .idle false
    else t) s

/-- Step 6: sources of the pool are unlinked, FORWARDED ones closed at their proxies (R358), and every unit
is written as R87 says. -/
def State.purge6 (s : State) (i : Nat) : State :=
  let x := s.slc i
  let t := (s.arr.pla.filter fun p => s.inPool i p.1).foldl (fun u p => u.onSource p.1 fun v => v.unlink p.1) s
  let t := (s.cas.fwds.filter fun p => s.inPool i p.1).foldl (fun u p =>
    match p.2 with
    | some f => (u.sendE2e f.dev (s.entry p.1).urgent
        (.proxy 4 (gsrcOf s.dev p.1) 0 0 0 (BitVec.ofNat 14 (f.proxy.getD 0)))).setFwd p.1 none
    | none => u) t
  let t := t.onArr fun a => { a with masked := a.masked.filter fun n => !s.inPool i n }
  (List.range x.info.extUnits).foldl (fun u k =>
    let un := x.info.extFirst + k
    if s.img.orphanUnits.contains un then u else u.clearUnit un (unitBaseOf s.img.active un i x.info.world)) t

/-- Step 7: the slice's counters are cleared; QUIESCED and CLEAN. -/
def State.purge7 (s : State) (i : Nat) : State :=
  let t := s.onSlc i fun x => { x with cnt := {}, spillPeak := 0, armed := true, state := .quiesced,
                                       clean := true, purging := false, xfer := .none }
  let t := (s.ctxsOf i).foldl (fun u c => u.onCtx c fun x => { x with cnt := {} }) t
  (s.grpsOf i).foldl (fun u g => u.onGrp g fun x => { x with emptyCnt := 0, mchg := 0 }) t

/-- Steps 1 to 5. -/
def State.purgeBegin (s : State) (i : Nat) : State :=
  (((((s.purge1 i).purge2 i).purge3 i).purge4 i).purge5 i).purgeProxies i

/-- Steps 6 and 7. -/
def State.purgeEnd (s : State) (i : Nat) : State := (s.purge6 i).purge7 i

/-! ### Freeze conditions (R289) -/

/-- Sources of a slice's pool whose entry has been written since the last clear of their unit. -/
def State.poolCells (s : State) (i : Nat) : List (Nat × Entry) := s.arr.cells.filter fun p => s.inPool i p.1

/-- Whether a slice owns the owner a route names (R205). -/
def State.ownsRoute (s : State) (i : Nat) (rmode : Bool) (route : BitVec 13) : Bool :=
  if rmode then (s.grp (routeGrp route)).defined && (s.grp (routeGrp route)).slice == i
  else routeDev route == s.dev && (s.ctx (routeCtx route)).inUse && (s.ctx (routeCtx route)).slice == i

/-- Every ROUTE of the pool names an owner of the slice: entries written, and units that still hold entries
as cleared. -/
def State.poolRoutesOwn (s : State) (i : Nat) : Bool :=
  let x := s.slc i
  (s.poolCells i).all (fun p => s.ownsRoute i p.2.rmode p.2.route) &&
  (List.range x.info.extUnits).all fun k =>
    let u := x.info.extFirst + k
    let b := SMap.get {} s.arr.base u
    (s.arr.cells.filter fun p => isMsg p.1 && unitOf p.1 == u).length == 512 || s.ownsRoute i b.rmode b.route

/-- Whether a slice owns a queue owner. -/
def State.ownsOwner (s : State) (i o : Nat) : Bool :=
  if o < 1024 then s.ctxSlice o == some i else s.grpSliceOf (o - 1024) == some i

/-- The sources linked at an owner. -/
def OwnerQ.linked (q : OwnerQ) : List Nat :=
  ((List.range 16).filter fun n => bit q.sov n) ++ q.sovPx ++ q.qs.flatMap Prod.snd

/-- The slice is self-contained (R289): routes, members, links, deliveries taken or offered, locked sources. -/
def State.selfContained (s : State) (i : Nat) : Bool :=
  s.poolRoutesOwn i &&
  (s.grpsOf i).all (fun g => (s.grp g).members.all fun m => s.isLocal m && s.ctxSlice (routeCtx m) == some i) &&
  s.weir.queues.all (fun p => p.2.linked.all fun n => s.ownsOwner i p.1 == (s.sourceSlice n == some i)) &&
  s.ctxs.all (fun p => p.2.stack.all (fun e =>
    (s.ctxSlice p.1 == some i) == (s.sourceSlice e.src == some i)) && p.2.pres.all fun x =>
    x.stage = .withdrawn || x.gone || (s.ctxSlice p.1 == some i) == (s.sourceSlice x.src == some i)) &&
  s.img.active.locked.all fun r =>
    lockedRmode r || !(routeDev (lockedRoute r) == s.dev && s.ctxSlice (routeCtx (lockedRoute r)) == some i)

/-- The code FREEZE is refused with, if a condition of R289 does not hold. -/
def State.freezeCheck (s : State) (i : Nat) : Nat :=
  if s.img.active.wired.any (fun r => wiredInUse r && wiredSlice r == i) then resHasWired
  else if (s.poolCells i).any (fun p => p.2.state = .forwarded) ||
      s.cas.proxies.any (fun p => p.2.live && (s.entry p.1).slice.toNat == i) ||
      (s.grpsOf i).any (fun g => (s.grp g).cascadeWide) then resCascade
  else if !s.selfContained i then resForeign
  else resDone

/-! ### Save images (R291, R294) -/

/-- LENGTH of a save image. -/
def saveLength (nctx ngrp units : Nat) : Nat := 192 + 176 * nctx + 136 * ngrp + 8192 * units

/-- Position of a context among the slice's, and of a group among its groups. -/
def relIdx (l : List Nat) (x : Nat) : Nat := l.idxOf x

/-- The source record of slice-local source `k`. -/
def State.saveSrc (s : State) (i k : Nat) : SaveSrc :=
  let n := unitFirst (s.slc i).info.extFirst + k
  let e := s.entry n
  let pl := s.plaOf n
  let rel := if e.rmode then BitVec.ofNat 13 (relIdx (s.grpsOf i) (routeGrp e.route))
    else BitVec.ofNat 13 (relIdx (s.ctxsOf i) (routeCtx e.route))
  let order := match s.ownerOf e with
    | some o => (s.queue o (s.linkOf n).lprio).idxOf n
    | none => 0
  { entry := ({ e with route := rel, slice := 0 } : Entry).toWord,
    age := if e.state = .idle then 0 else lo32 (s.slc i).freezeTick - pl.stamp,
    link := BitVec.ofNat 32 (b2n pl.linked * 2 ^ 31 + b2n pl.promoted * 2 ^ 30 + b2n pl.missed * 2 ^ 29 +
      (if pl.linked then order else 0)) }

/-- TGT_DLV_CNT0 to 2 (R249). -/
def DlvCnt.w0 (k : DlvCnt) : BitVec 64 := pack [(32, 32, k.takes), (16, 16, k.declines), (0, 16, k.revokes)]
def DlvCnt.w1 (k : DlvCnt) : BitVec 64 :=
  pack [(48, 16, k.timeouts), (32, 16, k.stray), (16, 16, k.order), (0, 16, k.abandoned)]
def DlvCnt.w2 (k : DlvCnt) : BitVec 64 :=
  pack [(48, 16, k.void), (32, 16, k.retired), (16, 16, k.withdrawn), (0, 16, k.badans)]

/-- The counters of the three words. -/
def DlvCnt.ofWords (a b c : BitVec 64) : DlvCnt :=
  { takes := fld a 32 32, declines := fld a 16 16, revokes := fld a 0 16, timeouts := fld b 48 16,
    stray := fld b 32 16, order := fld b 16 16, abandoned := fld b 0 16, void := fld c 48 16,
    retired := fld c 32 16, withdrawn := fld c 16 16, badans := fld c 0 16 }

/-- A stack entry of a save image. -/
def State.saveStk (s : State) (i : Nat) (e : Stk) : BitVec 64 :=
  pack [(63, 1, 1), (62, 1, b2n e.void), (53, 9, e.rank), (41, 12, e.tag), (0, 21, (s.localNum i e.src).2)]

/-- The context record of a context of the slice. -/
def State.saveCtx (s : State) (i c : Nat) : SaveCtx :=
  let x := s.ctx c
  { vbase := x.vbase.setWidth 64,
    dlvCfg := BitVec.ofNat 32 (x.ptmo * 2 ^ 16 + x.dhold),
    flags := BitVec.ofNat 32 (b2n x.grpOut + x.stack.length * 2 ^ 8),
    cnt0 := x.cnt.w0, cnt1 := x.cnt.w1, cnt2 := x.cnt.w2,
    stack := x.stack.map (s.saveStk i) }

/-- The group record of a group of the slice. -/
def State.saveGrp (s : State) (i g : Nat) : SaveGrp :=
  let x := s.grp g
  { limit := BitVec.ofNat 8 x.limit, count := BitVec.ofNat 8 x.members.length,
    rrptr := BitVec.ofNat 8 x.rrptr, flags := BitVec.ofNat 8 (b2n x.preferAwake),
    members := x.members.map fun m => BitVec.ofNat 16 (relIdx (s.ctxsOf i) (routeCtx m)) }

/-- SLC_SHARE of a share (R284). -/
def Share.word (x : Share) : BitVec 64 := pack [(32, 8, x.dweight), (16, 14, x.quota), (0, 8, x.aweight)]

/-- The share of a word; QUOTA above 8,192 is held there (R284). -/
def Share.ofWord (v : BitVec 64) : Share :=
  { aweight := fld v 0 8, quota := min (fld v 16 14) 8192, dweight := fld v 32 8 }

/-- The save image of a frozen slice, its digest still zero (R294). -/
def State.saveBody (s : State) (i : Nat) : SaveImage :=
  let x := s.slc i
  let cs := s.ctxsOf i
  let gs := s.grpsOf i
  { magic := 0x534C4356, format := 1, mode := BitVec.ofNat 8 (b2n x.info.mediated),
    flags := BitVec.ofNat 8 (b2n x.info.world + 2 * b2n x.info.windowed + 4 * b2n x.info.strayRaise),
    hwver := BitVec.ofNat 16 hwver, slice := BitVec.ofNat 12 i,
    units := BitVec.ofNat 16 x.info.extUnits, nctx := BitVec.ofNat 16 cs.length,
    ngrp := BitVec.ofNat 16 gs.length, devid := BitVec.ofNat 3 s.dev,
    length := BitVec.ofNat 32 (saveLength cs.length gs.length x.info.extUnits),
    freezeTick := x.freezeTick, shares := x.live.word, ceiling := BitVec.ofNat 8 x.info.ceiling,
    profile := BitVec.ofNat 8 x.info.profile, hwm := BitVec.ofNat 16 x.hwm, digest := 0,
    reservedOk := true, cpl := x.cnt.cpl,
    dl := pack [(32, 32, x.cnt.dlMissed), (0, 32, x.cnt.dlProm)],
    merged := BitVec.ofNat 32 x.cnt.merged, wdrawn := BitVec.ofNat 32 x.cnt.wdrawn,
    refs := [0, BitVec.ofNat 32 x.cnt.noSlice, BitVec.ofNat 32 x.cnt.pageMis, BitVec.ofNat 32 x.cnt.world,
             BitVec.ofNat 32 x.cnt.closed, BitVec.ofNat 32 x.cnt.outOfPool, BitVec.ofNat 32 x.cnt.emptyRng, 0],
    ctxs := cs.map (s.saveCtx i), grps := gs.map (s.saveGrp i),
    srcs := (List.range x.poolSize).filterMap fun k =>
      let r := s.saveSrc i k
      if r = { entry := 0, age := 0, link := 0 } then none else some (BitVec.ofNat 21 k, r) }

/-- The save image of a frozen slice (R294). -/
def State.saveImage (s : State) (i : Nat) : SaveImage := { s.saveBody i with digest := saveDigest (s.saveBody i) }

/-! ### Restore (R292, R293) -/

/-- A context record keeps its layout: reserved bits zero, PTMO of R244, as many entries as its depth (R294). -/
def saveCtxOk (c : SaveCtx) (units : Nat) : Bool :=
  fld c.vbase 48 16 == 0 && fld c.vbase 0 4 == 0 && fld c.dlvCfg 26 6 == 0 && fld c.dlvCfg 12 4 == 0 &&
  1 ≤ fld c.dlvCfg 16 10 && fld c.dlvCfg 16 10 ≤ 1000 && fld c.flags 1 7 == 0 && fld c.flags 13 19 == 0 &&
  c.stack.length ≤ 16 && fld c.flags 8 5 == c.stack.length &&
  c.stack.all fun e => bit e 63 && fld e 53 9 ≤ 256 && fld e 21 20 == 0 && fld e 0 21 < 512 * units

/-- A group record keeps its layout: reserved bits zero, LIMIT of R206, RRPTR an index of the list (R294). -/
def saveGrpOk (g : SaveGrp) (nctx : Nat) : Bool :=
  fld g.flags 1 7 == 0 && g.members.length == g.count.toNat && g.count.toNat ≤ g.limit.toNat && 1 ≤ g.limit.toNat &&
  g.limit.toNat ≤ 64 && g.rrptr.toNat < max 1 g.count.toNat && g.members.all fun x => x.toNat < nctx

/-- A source record keeps its layout: SLICE zero, a state that a frozen source can have, ROUTE a relative index, no
stamp for IDLE (R294). -/
def saveSrcOk (r : SaveSrc) (nctx ngrp : Nat) : Bool :=
  let e := Entry.ofWord r.entry
  e.slice == 0 && (e.state = .idle || e.state = .pending || e.state = .active || e.state = .activePending) &&
  (if e.rmode then e.route.toNat < ngrp else e.route.toNat < nctx) && fld r.link 21 8 == 0 &&
  (e.state ≠ .idle || r.age == 0)

/-- Whether the fields of a save image keep the layout of R294. -/
def saveLayoutOk (m : SaveImage) : Bool :=
  m.magic == 0x534C4356 && m.format == 1 && m.digest == saveDigest m && m.reservedOk && m.mode.toNat ≤ 1 &&
  fld m.shares 40 24 == 0 && fld m.shares 30 2 == 0 && fld m.shares 8 8 == 0 && fld m.shares 16 14 ≤ 8192 &&
  m.hwm.toNat ≤ 8192 &&
  fld m.flags 3 5 == 0 && m.length.toNat == saveLength m.nctx.toNat m.ngrp.toNat m.units.toNat &&
  m.ctxs.length == m.nctx.toNat && m.grps.length == m.ngrp.toNat && m.refs.length == 8 &&
  m.refs.getD 0 0 == 0 && m.refs.getD 7 0 == 0 &&
  m.ctxs.all (fun c => saveCtxOk c m.units.toNat) && m.grps.all (fun g => saveGrpOk g m.nctx.toNat) &&
  m.srcs.all (fun r => r.1.toNat < 512 * m.units.toNat && saveSrcOk r.2 m.nctx.toNat m.ngrp.toNat) &&
  (0 < m.nctx.toNat || 512 * m.units.toNat ≤ m.srcs.length)

/-- The image comes from a later hardware version (R293). -/
def saveVersionOk (m : SaveImage) : Bool :=
  fld m.hwver 8 8 < hwMajor || (fld m.hwver 8 8 == hwMajor && fld m.hwver 0 8 ≤ hwMinor)

/-- The refusal of a save image for a slice, or DONE (R293). -/
def State.restoreCheck (s : State) (i : Nat) (m : SaveImage) : Nat :=
  let x := s.slc i
  let cs := s.ctxsOf i
  let gs := s.grpsOf i
  if !saveLayoutOk m then resImageBad
  else if !saveVersionOk m then resVersion
  else if (m.mode == 1) != x.info.mediated || bit m.flags 0 != x.info.world ||
      x.info.extUnits < m.units.toNat || cs.length < m.nctx.toNat || gs.length < m.ngrp.toNat ||
      m.grps.zipIdx.any (fun g => (s.grp (gs.getD g.2 0)).limit < g.1.count.toNat) then resShape
  else if m.ctxs.zipIdx.any (fun c => c.1.stack.any fun e =>
      (s.tagsUsed (ctxPort (cs.getD c.2 0))).contains (fld e 41 12)) then resTagConflict
  else if x.runLen < m.length.toNat then resLength
  else resDone

/-- Write one source of the pool from its record; STAMP counts back from the restore's tick (R292 steps 2
and 3). -/
def State.restoreSrc (s : State) (i : Nat) (tick : BitVec 32) (r : BitVec 21 × SaveSrc) : State :=
  let n := unitFirst (s.slc i).info.extFirst + r.1.toNat
  let e := Entry.ofWord r.2.entry
  let route := if e.rmode then BitVec.ofNat 13 ((s.grpsOf i).getD (routeGrp e.route) 0)
    else mkRoute s.dev ((s.ctxsOf i).getD (routeCtx e.route) 0)
  let t := s.writeEntry n { e with route := route, slice := BitVec.ofNat 12 i, world := (s.slc i).info.world,
                                   sov := false, trig := false }
  t.onPla n fun p => { p with stamp := tick - r.2.age, promoted := bit r.2.link 30, missed := bit r.2.link 29 }

/-- A linked source of a save image with its ORDER. -/
structure LinkRec where
  src   : Nat
  order : Nat
  stamp : BitVec 32
  deriving DecidableEq, Repr

/-- Ascending ORDER, ties under R183. -/
def LinkRec.before (a b : LinkRec) : Bool :=
  a.order < b.order || (a.order == b.order && (olderStamp a.stamp b.stamp ||
    (!olderStamp b.stamp a.stamp && a.src ≤ b.src)))

/-- Insert in that order. -/
def insertLink (x : LinkRec) : List LinkRec → List LinkRec
  | [] => [x]
  | y :: l => if y.before x then y :: insertLink x l else x :: y :: l

/-- Write context number `j` of the image (R292 step 6). -/
def State.restoreCtx (s : State) (i : Nat) (c : SaveCtx × Nat) : State :=
  let k := (s.ctxsOf i).getD c.2 0
  let first := unitFirst (s.slc i).info.extFirst
  s.onCtx k fun x =>
    { x with vbase := BitVec.ofNat 48 (fld c.1.vbase 4 44 * 16), ptmo := fld c.1.dlvCfg 16 10,
             dhold := fld c.1.dlvCfg 0 12, grpOut := bit c.1.flags 0,
             cnt := DlvCnt.ofWords c.1.cnt0 c.1.cnt1 c.1.cnt2,
             stack := c.1.stack.map fun e =>
               { void := bit e 62, rank := fld e 53 9, tag := fld e 41 12, src := first + fld e 0 21,
                 stamp := (s.plaOf (first + fld e 0 21)).stamp } }

/-- Write group number `j` of the image (R292 step 6). -/
def State.restoreGrp (s : State) (i : Nat) (g : SaveGrp × Nat) : State :=
  s.onGrp ((s.grpsOf i).getD g.2 0) fun x =>
    { x with members := g.1.members.map fun m => mkRoute s.dev ((s.ctxsOf i).getD (fld m 0 10) 0),
             rrptr := g.1.rrptr.toNat }

/-- Write a slice from a save image that passed its checks (R292): every source of the image's units, those whose
record is all zero among them, their zero ROUTE naming relative context 0. -/
def State.restoreApply (s : State) (i : Nat) (m : SaveImage) : State :=
  let tick := lo32 s.stampSclk
  let first := unitFirst (s.slc i).info.extFirst
  let zero (u : State) (k : Nat) : State := u.clearUnit ((s.slc i).info.extFirst + k)
    { route := mkRoute s.dev ((s.ctxsOf i).getD 0 0), slice := BitVec.ofNat 12 i, world := (s.slc i).info.world,
      stamp := tick }
  let t := (List.range m.units.toNat).foldl zero s.drawn
  let t := m.srcs.foldl (fun u r => u.restoreSrc i tick r) t
  let links := (m.srcs.filter fun r => bit r.2.link 31).map fun r =>
    ({ src := first + r.1.toNat, order := fld r.2.link 0 21, stamp := tick - r.2.age } : LinkRec)
  let t := (links.foldl (fun acc x => insertLink x acc) []).foldl (fun u l => u.tailLink l.src) t
  let t := m.srcs.foldl (fun u r =>
    let n := first + r.1.toNat
    if u.waiting n then u.armPromotion n else u) t
  let t := m.ctxs.zipIdx.foldl (fun u c => u.restoreCtx i c) t
  let t := m.grps.zipIdx.foldl (fun u g => u.restoreGrp i g) t
  let ref (k : Nat) : Nat := (m.refs.getD k 0).toNat
  t.onSlc i fun x =>
    { x with
      state := .quiesced, clean := false, xfer := .none, hwm := min m.hwm.toNat 8192,
      staged := Share.ofWord m.shares, live := Share.ofWord m.shares, pend := none,
      cnt := { x.cnt with cpl := m.cpl, dlMissed := fld m.dl 32 32, dlProm := fld m.dl 0 32,
                          merged := m.merged.toNat, wdrawn := m.wdrawn.toNat, noSlice := ref 1,
                          pageMis := ref 2, world := ref 3, closed := ref 4, outOfPool := ref 5,
                          emptyRng := ref 6 } }

/-- The end of a restore: the image's effect, or the reset of the pool with the cause (R292, R293). -/
def State.restoreFinish (s : State) (i : Nat) (r : MemEnd) (m : SaveImage) : State :=
  let t := if r.ok then s.finishXfer i (min m.length.toNat (s.slc i).runLen) else s.failXfer i
  let code := if r.ok then s.restoreCheck i m else resMemFault
  if code = resDone then (t.restoreApply i m).onSlc i fun x => { x with result := resDone }
  else (t.purgeEnd i).onSlc i fun x => { x with result := code }

/-! ### Commands (R274, R280 to R282) -/

/-- Whether a structure image that is STAGED or COMMIT_PENDING changes a slice (R109): its record, extent,
contexts, groups or lines. -/
def changesSlice (a b : ImageBody) (i : Nat) : Bool :=
  sliceRec a i != sliceRec b i || poolOfSlice a i != poolOfSlice b i ||
  (List.range 1024).any (fun c => recAt a.contexts c != recAt b.contexts c &&
    (ctxRecSlice a c == i || ctxRecSlice b c == i)) ||
  (List.range 984).any (fun k => recAt a.wired k != recAt b.wired k &&
    (wiredSlice (recAt a.wired k) == i || wiredSlice (recAt b.wired k) == i)) ||
  (List.range 512).any fun g => grpRec a g != grpRec b g &&
    ((grpRec a g).any (fun r => grpSlice r == i) || (grpRec b g).any fun r => grpSlice r == i)

/-- A staged image pins a slice. -/
def State.pinned (s : State) (i : Nat) : Bool :=
  (s.img.stage = .staged || s.img.stage = .commitPending) &&
  match s.img.staged with
  | some m => changesSlice s.img.active m.body i
  | none => false

/-- The states in which a command is allowed (R282). -/
def cmdAllowed (cmd : Nat) (st : SlcState) : Bool :=
  match cmd with
  | 1 => st = .quiesced || st = .quiescing
  | 2 => st = .active
  | 3 => st = .quiesced || st = .frozen
  | 4 => st != .unassigned
  | 5 => st = .quiesced
  | 6 => st = .frozen
  | 7 => st = .quiesced
  | 8 => st = .frozen
  | _ => false

/-- The code a command is refused with, in the order of R281; `mgr`: the requester is the manager. -/
def State.cmdCheck (s : State) (i : Nat) (mgr : Bool) (cmd : Nat) : Nat :=
  let x := s.slc i
  if cmd = 0 || 8 < cmd then resBadCmd
  else if !mgr && cmd ≠ 2 && cmd ≠ 3 then resNotManager
  else if ((cmd = 3 || cmd = 6 || cmd = 8) && x.xfer != .none) || (cmd = 4 && x.xfer = .forced) then resBusy
  else if i = 0 && cmd ≠ 1 then resBadState
  else if !cmdAllowed cmd x.state then (if cmd = 3 then resNotQuiesced else resBadState)
  else if cmd = 1 && s.pinned i then resStagePinned
  else if cmd = 5 then s.freezeCheck i
  else if cmd = 6 && (x.xferLen = 0 ||
      x.xferLen < saveLength (s.ctxsOf i).length (s.grpsOf i).length x.info.extUnits) then resLength
  else if cmd = 7 && !x.clean then resNotClean
  else if cmd = 7 && x.xferLen = 0 then resLength
  else resDone

/-- Take back the untaken presentations to a slice's contexts, as a drain does; a WITHDRAWN one waits for its answer or
its retirement (R283). -/
def State.drainPres (s : State) (i : Nat) : State :=
  (s.ctxsOf i).foldl (fun t c =>
    if (t.ctx c).pres.any fun p => p.stage = .withdrawn then t else t.requestRevoke c) s

/-- The effect of an accepted command. -/
def State.cmdApply (s : State) (i cmd : Nat) : State :=
  match cmd with
  | 1 => s.onSlc i fun x => { x with state := .active, clean := false }
  | 2 => (s.setSlcState i .quiescing).drainPres i
  | 3 => (s.purgeBegin i).purgeEnd i
  | 4 =>
    let t := if (s.slc i).state = .active then s.setSlcState i .quiescing else s
    (t.purgeBegin i).onSlc i fun x => { x with xfer := .forced, purging := true }
  | 5 =>
    let t := s.exitsOf (s.inPool i)
    (t.onSlc i fun x => { x with state := .frozen, freezeTick := t.stampSclk }).drawn
  | 6 =>
    let m := s.saveImage i
    (s.memReady i).onSlc i fun x =>
      { x with xfer := .save, xferBytes := 0, runAddr := x.xferAddr, runLen := m.length.toNat,
               xferTot := m.length.toNat, saveImg := some m }
  | 7 => (s.memReady i).onSlc i fun x =>
      { x with xfer := .restore, state := .restoring, xferBytes := 0, runAddr := x.xferAddr, runLen := x.xferLen,
               xferTot := min 128 x.xferLen }
  | 8 => s.setSlcState i .quiesced
  | _ => s

/-- A write of SLC_CTL: LASTCMD and RESULT are written, a refused command completes with FAULT and changes
nothing else (R280). The flag is the FAULT. -/
def State.slcCmd (s : State) (i : Nat) (mgr : Bool) (cmd : Nat) : State × Bool :=
  let code := s.cmdCheck i mgr cmd
  let t := if code = resDone then s.cmdApply i cmd else s
  (t.onSlc i fun x => { x with lastcmd := cmd % 16, result := code }, code != resDone)

/-- The drain of QUIESCE has ended when nothing of the slice is in flight, presented or buffered (R283). -/
def State.drained (s : State) (i : Nat) : Bool :=
  s.inflight i == 0 && (s.ctxsOf i).all (fun c => (s.ctx c).pres.isNone) && (s.logOf i).isEmpty

/-- QUIESCING ends (R283). -/
def State.drainEnd (s : State) (i : Nat) : State :=
  let x := s.slc i
  if x.state = .quiescing && x.xfer = .none && s.drained i then s.setSlcState i .quiesced else s

/-- The end of a forced reset's purge (R288); what a pass has presented of the slice's sources since it began ends
first. -/
def State.forcedEnd (s : State) (i : Nat) : State :=
  if (s.slc i).xfer = .forced then (((s.purge3 i).purge4 i).purge5 i).purgeEnd i else s

/-- The end of a save (R291): abandoned at a FAULT, else every transaction made. -/
def State.saveFinish (s : State) (i : Nat) (m : MemEnd) : State :=
  if (s.slc i).xfer = .save then
    if m.ok then (s.finishXfer i (s.slc i).runLen).onSlc i fun x => { x with xfer := .none }
    else (s.failXfer i).onSlc i fun x => { x with xfer := .none, result := resMemFault, saveImg := none }
  else s

/-! ### Shares (R284) -/

/-- The staged shares are committed, replacing a commit that still waits. -/
def State.shareCommit (s : State) (i : Nat) : State := s.onSlc i fun x => { x with pend := some x.staged }

/-- A credit epoch boundary: committed shares become live. -/
def State.creditEpoch (s : State) : State :=
  s.onSlcs fun m => SMap.mapVals {} (fun _ x =>
    match x.pend with
    | some sh => { x with live := sh, pend := none }
    | none => x) m

end Sys2Proof.Machine
end

