-- ==== Sys2Proof/Machine/Keys.lean ====
section
/-!
DEFINITION. The key vault and the key store: slots, usability, commits, restore (R412 to R425).
-/

namespace Sys2Proof.Machine

/-- A live slot. -/
def State.slot (s : State) (n : Nat) : Slot := SMap.get {} s.keys.slots n

def State.onSlot (s : State) (n : Nat) (f : Slot → Slot) : State :=
  s.onKeys fun k => { k with slots := SMap.upd {} k.slots n f }

/-- A copy of the key store; slot 16 is the root record. -/
def State.copy (s : State) (b : Bool) (n : Nat) : KeyCopy :=
  SMap.get {} (if b then s.keys.copyB else s.keys.copyA) n

def State.setCopy (s : State) (b : Bool) (n : Nat) (c : KeyCopy) : State :=
  s.onKeys fun k =>
    if b then { k with copyB := SMap.set {} k.copyB n c } else { k with copyA := SMap.set {} k.copyA n c }

/-- The secret of the selected root. -/
def State.rootSecret (s : State) : BitVec 256 := s.straps.roots.getD s.keys.root 0

/-- The selected root is not invalidated. -/
def State.rootOk (s : State) : Bool := s.keys.formed && !bit s.keys.rootInv s.keys.root

/-- A slot is USABLE (R416); a parent chain rises, so it has at most 16 slots. -/
def State.usableIn (s : State) : Nat → Nat → Bool
  | 0, _ => false
  | k + 1, n =>
    let x := s.slot n
    x.present && !x.invalidated &&
      (if x.parent = 31 then s.rootOk
       else s.usableIn k x.parent && (s.slot x.parent).gen == x.pgen)

/-- A slot is USABLE. -/
def State.usable (s : State) (n : Nat) : Bool := s.usableIn 16 n

/-- STATE of KEY_SLOTn_ST (R424). -/
def State.slotCode (s : State) (n : Nat) : Nat :=
  let x := s.slot n
  if x.invalidated then 3 else if !x.present then 0 else if s.usable n then 1 else 2

/-- Slot that verifies images (R100): under the test root 4, else by life-cycle state. -/
def State.verifySlot (s : State) : Nat := if s.keys.root = 3 then 4 else s.straps.lcs + 1

/-! ### Restore at step 3 (R412, R415, R421, R423) -/

/-- The 12 words that a commit writes for a copy, its wrapped key given: header, key, CRC-32 and TOMBSTONE, GEN and its
complement (R421). -/
def KeyCopy.layout (c : KeyCopy) (key : List (BitVec 64)) : List (BitVec 64) :=
  let body := padTo 10 (c.header :: key)
  let gen := BitVec.ofNat 32 c.gen
  body ++ [pack [(0, 32, (crc32 (body.flatMap (bytesLE 8) ++ bytesLE 4 gen)).toNat), (32, 1, b2n c.tombstone)],
           pack [(0, 32, gen.toNat), (32, 32, (~~~gen).toNat)]]

/-- The words of a copy; the root record, slot 16, uses words 0, 10 and 11 only (R421). -/
def KeyCopy.words (c : KeyCopy) (n : Nat) : List (BitVec 64) :=
  c.layout (if n = 16 || c.tombstone then [] else Config.kwWrap (Config.storeKey c.sealed) c.key)

/-- A copy is valid: CRC, word 11 and GEN (R423). -/
def KeyCopy.valid (c : KeyCopy) : Bool := !c.erased && c.ok && c.gen ≠ 0 && c.gen ≠ 0xFFFFFFFF

/-- A copy as a root sees it: one whose unwrap fails under the root counts as empty (R423). -/
def KeyCopy.under (c : KeyCopy) (root : BitVec 256) : KeyCopy :=
  if c.valid && !c.tombstone && c.sealed ≠ root then { commits := c.commits } else c

/-- Which copy is in use: the valid one of the higher GEN, A among equals (R423). -/
def copyInUse (a b : KeyCopy) : Option Bool :=
  if a.valid then some (b.valid && a.gen < b.gen) else if b.valid then some true else none

/-- Neither valid nor erased (R423). -/
def KeyCopy.torn (c : KeyCopy) : Bool := !c.erased && !c.valid

/-- What the fixed table of R415 puts into slots 0 to 5. -/
def fixedSlot (root : BitVec 256) (vkeys : List Bool) (n : Nat) : Slot :=
  match n with
  | 0 => { present := true, use := 2, neverExport := true, parent := 31, key := Config.identityKey root }
  | 5 => { present := true, use := 4, secureOnly := true, neverExport := true, parent := 31,
           key := Config.linkKey root }
  | n => { present := vkeys.getD (n - 1) false, use := 1, parent := 31 }

/-- The slot that a copy in use gives. -/
def slotOfCopy (root : BitVec 256) (vkeys : List Bool) (n : Nat) (c : KeyCopy) (b torn : Bool) : Slot :=
  if n < 6 then { fixedSlot root vkeys n with invalidated := true, gen := c.gen, copyB := b, torn := torn }
  else if c.tombstone then { invalidated := true, gen := c.gen, copyB := b, torn := torn }
  else
    { present := true, copyB := b, torn := torn, use := c.header.extractLsb' 0 4,
      secureOnly := bit c.header 5, neverExport := bit c.header 6, parent := fld c.header 7 5,
      gen := c.gen, pgen := fld c.header 32 32, klen := fld c.header 12 4, key := c.key }

/-- Restore one slot from its copies; both unusable is the KEY_STORE class (R423). -/
def State.restoreSlot (s : State) (n : Nat) : State :=
  let r := s.rootSecret
  let a := (s.copy false n).under r
  let b := (s.copy true n).under r
  let fixed := if n < 6 then fixedSlot r s.straps.vkeys n else {}
  match copyInUse a b with
  | some u =>
    let c := if u then b else a
    let o := if u then a else b
    let x := if n < 6 && !c.tombstone then { fixed with torn := o.torn }
      else slotOfCopy r s.straps.vkeys n c u o.torn
    s.onSlot n fun _ => x
  | none =>
    let t := s.onSlot n fun _ => fixed
    if a.torn || b.torn then t.fail 0x16 none 7 n 1 else t

/-- The root's invalidation bits, from the root record (R421). -/
def State.restoreRoots (s : State) : State :=
  let a := s.copy false 16
  let b := s.copy true 16
  match copyInUse a b with
  | some u => s.onKeys fun k => { k with rootInv := (if u then b else a).header.extractLsb' 0 4 }
  | none =>
    let t := s.onKeys fun k => { k with rootInv := 0 }
    if a.torn || b.torn then t.fail 0x16 none 7 31 1 else t

/-- Step 3: the root by life-cycle state, the test root with an invasive enable, then every slot. -/
def State.formKeys (s : State) : State :=
  let test := bit s.straps.dbgSamp 3 || bit s.straps.dbgSamp 1
  let t := s.onKeys fun k => { k with root := if test then 3 else s.straps.lcs, formed := true }
  (List.range 16).foldl State.restoreSlot t.restoreRoots

/-- What a reset that clears the vault leaves: the key store alone (R73). -/
def Keys.cleared (k : Keys) : Keys := { copyA := k.copyA, copyB := k.copyB }

/-- Answer a key message: KEY_RVALID with DONE or FAULT, one for each message (R48). -/
def State.keyAnswer (s : State) (ok : Bool) : State := s.onKeys fun k => { k with resps := k.resps ++ [ok] }

/-! ### Commits (R422) -/

/-- The copy in use of a slot or of the root record: B when its copies say so. -/
def State.inUseB (s : State) (n : Nat) : Bool :=
  if n < 16 then (s.slot n).copyB else (copyInUse (s.copy false n) (s.copy true n)).getD false

/-- Begin a commit into the copy that is not in use, with the next GEN; a copy at 100,000 commits refuses
it with FAULT and the KEY_STORE class. -/
def State.beginCommit (s : State) (n : Nat) (c : KeyCopy) (live : Nat → Option Slot) : State :=
  let toB := !s.inUseB n
  let old := s.copy toB n
  let gen := max (s.copy false n).gen (s.copy true n).gen + 1
  if 100000 ≤ old.commits then
    (s.keyAnswer false).fail 0x16 none 7 (if n = 16 then 31 else n) 2
  else
    s.onKeys fun k =>
      { k with commit := some { slot := n, toB := toB,
                                copy := { c with erased := false, ok := true, gen := gen,
                                                 commits := old.commits + 1 },
                                live := (live gen).map fun x => { x with copyB := toB, gen := gen } } }

/-- A commit cut short leaves its copy neither valid nor erased (R423). -/
def State.tearCommit (s : State) : State :=
  match s.keys.commit with
  | some c =>
    (s.setCopy c.toB c.slot { c.copy with ok := false, gen := (s.copy c.toB c.slot).gen }).onKeys
      fun k => { k with commit := none }
  | none => s

/-- Word 11 is written and read back: the copy is valid, the live slot follows, the message is answered
DONE. -/
def State.finishCommit (s : State) : State :=
  match s.keys.commit with
  | some c =>
    let t := s.setCopy c.toB c.slot c.copy
    let t := match c.live with
      | some x => t.onSlot c.slot fun _ => x
      | none => t
    (t.onKeys fun k => { k with commit := none }).keyAnswer true
  | none => s

/-! ### LOAD and INVALIDATE of a slot (R49, R417, R418) -/

/-- The header of a LOAD keeps the table of R417. -/
def loadHeaderOk (n : Nat) (h : BitVec 64) : Bool :=
  fld h 16 48 == 0 && 2 ≤ fld h 12 4 && fld h 12 4 ≤ 8 && fld h 0 5 == 8 &&
  (fld h 7 5 == 31 || (6 ≤ fld h 7 5 && fld h 7 5 < n))

/-- The key and length that a parent gives. -/
def State.parentKey (s : State) (p : Nat) : Nat × BitVec 512 :=
  if p = 31 then (4, s.rootSecret.setWidth 512) else ((s.slot p).klen, (s.slot p).key)

/-- Whether a parent is USABLE; the root is while it is not invalidated. -/
def State.parentOk (s : State) (p : Nat) : Bool := if p = 31 then s.rootOk else s.usable p

/-- A LOAD whose message has no earlier one before it (R417). -/
def State.loadSlot (s : State) (n : Nat) (beats : List (BitVec 64)) : State :=
  match beats with
  | [] => s.keyAnswer false
  | h :: body =>
    let p := fld h 7 5
    let k := s.parentKey p
    if n < 6 || 16 ≤ n || !loadHeaderOk n h || beats.length ≠ fld h 12 4 + 2 || !s.parentOk p then
      s.keyAnswer false
    else
      match Config.kwUnwrap (Config.kekOf k.1 k.2 n h) body with
      | none => s.keyAnswer false
      | some key =>
        let pgen := if p = 31 then 0 else (s.slot p).gen
        let hdr := (h &&& 0xFFFFFFFF) ||| BitVec.ofNat 64 (pgen % 2 ^ 32 * 2 ^ 32)
        s.beginCommit n
          { header := hdr, key := key, sealed := s.rootSecret }
          fun _ => some { present := true, use := h.extractLsb' 0 4, secureOnly := bit h 5,
                          neverExport := bit h 6, parent := p, pgen := pgen, klen := fld h 12 4,
                          key := key }

/-- An INVALIDATE of a slot: invalidated live, then its tombstone is committed (R418). -/
def State.invalidateSlot (s : State) (n : Nat) : State :=
  let t := s.onSlot n fun x => { x with invalidated := true }
  t.beginCommit n { tombstone := true } fun _ =>
    some (if n < 6 then { t.slot n with torn := false } else { invalidated := true })

end Sys2Proof.Machine
end

