-- ==== Sys2Proof/Machine/Image.lean ====
section
/-!
DEFINITION. Images: verification, the checks of R104, compatibility, what an epoch may change, and the
structure an image sets (R79 to R112).
-/

namespace Sys2Proof.Machine

/-! ### The byte string of an image (R79, R80, R82) -/

/-- The bytes of the section that a descriptor names (R83). -/
def secBytes (m : Image) (d : SecDesc) : List (BitVec 8) :=
  let n := d.count.toNat
  let b := m.body
  let l := match d.type.toNat with
    | 0x01 => recsLE 64 n [b.boot]
    | 0x02 => recsLE 8 n b.pools
    | 0x03 => recsLE 16 n b.presets
    | 0x04 => recsLE 4 n b.wired
    | 0x05 => recsLE 8 n b.locked
    | 0x06 => recsLE 4 n b.contexts
    | 0x07 => recsLE 32 n b.slices
    | 0x08 => recsLE 8 n b.smap
    | 0x09 => recsLE 136 n b.groups
    | 0x0A => recsLE 96 n [b.cascade]
    | 0x0B => recsLE 8 n b.lanes
    | 0x0C => recsLE 8 n b.profiles
    | 0x0D => recsLE 2 n b.reactions
    | 0x0E => recsLE 4 n b.domains
    | 0x0F => recsLE 8 n b.fallback
    | 0x10 => recsLE 8 n m.compat
    | 0x20 => m.code
    | 0x21 => m.data
    | 0x7F => m.annex
    | _ => []
  padTo d.slen.toNat l

/-- The 128 header bytes (R80). -/
def headerBytes (h : ImageHdr) : List (BitVec 8) :=
  bytesLE 4 h.magic ++ bytesLE 2 h.format ++ [h.kind] ++ natLE 1 0 ++ bytesLE 4 h.length ++ bytesLE 2 h.nsect ++
    natLE 2 0 ++ bytesLE 4 h.version ++ bytesLE 4 h.gen ++ [h.keyslot] ++ natLE 7 0 ++ bytesLE 48 h.buildId ++ natLE 48 0

/-- The 16 bytes of a section descriptor (R82). -/
def descBytes (d : SecDesc) : List (BitVec 8) :=
  [d.type, d.sver] ++ bytesLE 2 d.count ++ bytesLE 4 d.offset ++ bytesLE 4 d.slen ++ bytesLE 4 d.crc

/-- A descriptor at its place among others, by OFFSET. -/
def insertDesc (d : SecDesc) : List SecDesc → List SecDesc
  | [] => [d]
  | x :: l => if d.offset.toNat ≤ x.offset.toNat then d :: x :: l else x :: insertDesc d l

/-- Sections, lowest OFFSET first, from byte `pos` on, with zeros between them. -/
def placeSections (m : Image) : Nat → List SecDesc → List (BitVec 8)
  | _, [] => []
  | pos, d :: l =>
    List.replicate (d.offset.toNat - pos) 0 ++ secBytes m d ++
      placeSections m (max pos d.offset.toNat + d.slen.toNat) l

/-- The signed bytes of an image, 0 to LENGTH − 97 (R101 step 4). -/
def signedBytes (m : Image) : List (BitVec 8) :=
  let head := headerBytes m.hdr ++ m.descs.flatMap descBytes
  padTo (m.hdr.length.toNat - 96) (head ++ placeSections m head.length (m.descs.foldr insertDesc []))

/-- The byte string of an image: the signature, r then s, each big-endian, closes it (R79). -/
def imageBytes (m : Image) : List (BitVec 8) := signedBytes m ++ bytesBE 48 m.sigR ++ bytesBE 48 m.sigS

/-- The digest of an image (R101 step 4, R106). -/
def imageDigest (m : Image) : BitVec 384 := sha384 (signedBytes m)

/-- COUNT of a section type in an image; 0 where the type is absent. -/
def secCount (m : Image) (ty : Nat) : Nat :=
  ((m.descs.find? fun d => d.type.toNat == ty).map fun d => d.count.toNat).getD 0

/-- The body with every section at its descriptor's COUNT. Sections of a fixed count stay as listed: their
missing records read zero. -/
def normBody (m : Image) : ImageBody :=
  { m.body with
    pools := padTo (secCount m 0x02) m.body.pools, presets := padTo (secCount m 0x03) m.body.presets,
    wired := m.body.wired.take 984, locked := padTo (secCount m 0x05) m.body.locked,
    contexts := m.body.contexts.take 1024, slices := padTo (secCount m 0x07) m.body.slices,
    smap := m.body.smap.take 4096, groups := padTo (secCount m 0x09) m.body.groups,
    lanes := m.body.lanes.take 16, profiles := padTo (secCount m 0x0C) m.body.profiles,
    reactions := padTo (secCount m 0x0D) m.body.reactions, domains := m.body.domains.take 28,
    fallback := m.body.fallback.take 1000 }

/-- The compatibility records of an image. -/
def compatOf (m : Image) : List (BitVec 64) := padTo (secCount m 0x10) m.compat

/-! ### Verification (R101) -/

/-- Longest image of a kind (R81). -/
def imgLimit (kind : Nat) : Nat :=
  match kind with
  | 1 => 4194304
  | 2 => 1048576
  | _ => 262144

/-- Step 1: MAGIC, FORMAT, KIND and LENGTH. -/
def hdrOk (h : ImageHdr) (kind : Nat) : Bool :=
  h.magic == 0x4D495342 && h.format == 2 && h.kind.toNat == kind &&
  0x80 + 16 * h.nsect.toNat + 96 ≤ h.length.toNat && h.length.toNat ≤ imgLimit kind

/-- Record size and least and largest COUNT of a section of a structure image (R83). -/
def secShape (ty : Nat) : Option (Nat × Nat × Nat) :=
  match ty with
  | 0x01 => some (64, 1, 1) | 0x02 => some (8, 1, 4096) | 0x03 => some (16, 0, 4094)
  | 0x04 => some (4, 984, 984) | 0x05 => some (8, 40, 40) | 0x06 => some (4, 1024, 1024)
  | 0x07 => some (32, 1, 4096) | 0x08 => some (8, 4096, 4096) | 0x09 => some (136, 0, 512)
  | 0x0A => some (96, 1, 1) | 0x0B => some (8, 16, 16) | 0x0C => some (8, 1, 16)
  | 0x0D => some (2, 1, 64) | 0x0E => some (4, 28, 28) | 0x0F => some (8, 1000, 1000)
  | 0x10 => some (8, 2, 64)
  | _ => none

/-- A section whose type and length belong to an image of a kind. -/
def secTypeOk (kind : Nat) (d : SecDesc) : Bool :=
  let ty := d.type.toNat
  if ty = 0x7F then true
  else if kind ≠ 1 && (ty = 0x20 || ty = 0x21) then true
  else if kind = 1 || ty = 0x10 then
    match secShape ty with
    | some (size, lo, hi) =>
      lo ≤ d.count.toNat && d.count.toNat ≤ hi && d.slen.toNat == d.count.toNat * size
    | none => false
  else false

/-- Two sections share no byte. -/
def secApart (a b : SecDesc) : Bool :=
  a.offset.toNat + a.slen.toNat ≤ b.offset.toNat || b.offset.toNat + b.slen.toNat ≤ a.offset.toNat

/-- Each element and every later one satisfy `f`. -/
def allPairs {α : Type} (f : α → α → Bool) : List α → Bool
  | [] => true
  | x :: l => l.all (f x) && allPairs f l

/-- The types an image of a kind requires. -/
def requiredTypes (m : Image) (kind : Nat) : List Nat :=
  if kind = 1 then
    [1, 2, 3, 4, 5, 6, 7, 8, 9, 10, 12, 13, 14, 15, 16] ++
      (if (List.range 4).any fun p => casLanes m.body p ≠ 0 then [11] else [])
  else [0x10, 0x20, 0x21]

/-- Step 5 but the total: every descriptor keeps R82 and R83. -/
def sectionsOk (m : Image) (kind : Nat) : Bool :=
  m.descs.length == m.hdr.nsect.toNat &&
  m.descs.all (fun d =>
    d.sver == 1 && d.offset.toNat % 8 == 0 && 0x80 + 16 * m.hdr.nsect.toNat ≤ d.offset.toNat &&
    d.offset.toNat + d.slen.toNat + 96 ≤ m.hdr.length.toNat && secTypeOk kind d && d.crc == crc32 (secBytes m d)) &&
  allPairs secApart m.descs && allPairs (fun a b => a.type != b.type) m.descs &&
  (requiredTypes m kind).all fun ty => m.descs.any fun d => d.type.toNat == ty

/-- The loaded total lies within the store (R84). -/
def totalOk (m : Image) : Bool :=
  ((m.descs.filter fun d => d.type != 0x7F).map fun d => d.slen.toNat).sum ≤ 1048576

/-! ### The checks of R104 -/

/-- World of a slices record, if the slice has one. -/
def recWorld (b : ImageBody) (sl : Nat) : Option Bool := (sliceRec b sl).map fun r => bit r 24

/-- Extents: no overlap, within unit 4,093, of slices with a record. -/
def extentsOk (b : ImageBody) : Bool :=
  let ps := b.pools.filter fun r => 0 < poolCount r
  allPairs (fun x y => poolFirst x + poolCount x ≤ poolFirst y || poolFirst y + poolCount y ≤ poolFirst x)
    ps && ps.all fun r => poolFirst r + poolCount r ≤ unitCount && (sliceRec b (poolSlice r)).isSome

/-- Owners of contexts, wired lines and groups have a record and the right world. The model's choice: a wired line that
is not in use, like a context that is not, has no owner to check (DESIGN CHOICE, assumption log entry 68). -/
def ownersOk (b : ImageBody) : Bool :=
  (List.range 1024).all (fun c =>
    !ctxRecInUse b c || recWorld b (ctxRecSlice b c) == some (ctxWorld c)) &&
  b.wired.all (fun r => !wiredInUse r || recWorld b (wiredSlice r) == some (wiredWorld r)) &&
  b.groups.all fun r => recWorld b (grpSlice r) == some (grpWorld r)

/-- A route reaches a context in use of the right world, and no remote one without a cascade role; a unit
of no slice has no world to compare. -/
def routeOk (b : ImageBody) (dev : Nat) (route : BitVec 13) (rmode : Bool) (world : Option Bool) : Bool :=
  if rmode then
    match grpRec b (routeGrp route) with
    | some g => world.all fun w => grpWorld g == w
    | none => false
  else
    (routeDev route == dev || casRole b ≠ 0) &&
    (routeDev route ≠ dev || ctxRecInUse b (routeCtx route)) &&
    world.all fun w => ctxWorld (routeCtx route) == w

/-- World that a fallback record's source has. -/
def sourceWorld (b : ImageBody) (k : Nat) : Option Bool :=
  if isSov k then (lockedRec b k).map lockedWorld else some (wiredWorld (wiredRec b k))

/-- Presets, locked sources, group members and fallback routes. -/
def routesOk (b : ImageBody) (dev : Nat) : Bool :=
  b.presets.all (fun r => routeOk b dev (r.extractLsb' 20 13) (bit r 33)
    ((poolOfUnit b (presetUnit r)).bind fun p => recWorld b (poolSlice p))) &&
  b.locked.all (fun r => routeOk b dev (lockedRoute r) (lockedRmode r) (some (lockedWorld r))) &&
  b.groups.all (fun r => (grpMembers r).all fun m => routeOk b dev m false (some (grpWorld r))) &&
  (b.fallback.zipIdx.all fun p =>
    !fbValid p.1 || p.2 == 14 || p.2 == 15 ||
    (routeDev (fbRoute p.1) == dev && routeOk b dev (fbRoute p.1) false (sourceWorld b p.2)))

/-- Groups: limit 1 to 64, members 1 to limit. -/
def groupsOk (b : ImageBody) : Bool :=
  b.groups.all fun r => 1 ≤ grpLimit r && grpLimit r ≤ 64 && 1 ≤ grpInitial r && grpInitial r ≤ grpLimit r

/-- The slice map: each PID once, in its positions, of a slice with a record. -/
def smapOk (b : ImageBody) : Bool :=
  b.smap.zipIdx.all fun p =>
    !smapValid p.1 || (smapFind b (p.1.extractLsb' 0 20) == some p.2 && (sliceRec b (smapSlice p.1)).isSome)

/-- Slices: slice 0 present, profiles present, mediated pools of at most 128 units, native slices
below 3,841 (R104, R275). -/
def slicesOk (b : ImageBody) : Bool :=
  (sliceRec b 0).isSome && b.profiles ≠ [] &&
  b.slices.all fun r => fld r 80 8 < b.profiles.length &&
    (fld r 16 8 == 1 || fld r 0 12 ≤ 3840) &&
    (fld r 16 8 ≠ 1 || ((poolOfSlice b (fld r 0 12)).elim 0 poolCount) ≤ 128)

/-- PTMO and the level ceilings. -/
def paramsOk (b : ImageBody) : Bool :=
  1 ≤ bootPtmo b && bootPtmo b ≤ 1000 &&
  (List.range 4).all fun l => nominalCode l ≤ bootVceil b l && bootVceil b l ≤ nominalCode l + 0x0C

/-- Safety reactions (R399, R400). -/
def reactionsOk (b : ImageBody) : Bool :=
  b.reactions.all (fun r =>
    if reactClass r = 0x80 then 1 ≤ reactCode r && reactCode r ≤ 125
    else isFailClass (reactClass r) && reactCode r ≤ 3 && minReaction (reactClass r) ≤ reactCode r) &&
  allPairs (fun x y => reactClass x != reactClass y) b.reactions

/-- Every check marked Device. -/
def deviceChecks (b : ImageBody) (dev : Nat) : Bool :=
  extentsOk b && ownersOk b && routesOk b dev && groupsOk b && smapOk b && slicesOk b && paramsOk b &&
  reactionsOk b

/-- Fuse minimum of the generation of a kind. -/
def Straps.genMin (x : Straps) (kind : Nat) : Nat :=
  match kind with
  | 1 => x.genStr
  | 2 => x.genStw
  | _ => x.genLane

/-- Steps 1 to 6 of R101: 0, or the code of the first failure. `floor` is the active GEN for a staged
structure image. -/
def State.verify (s : State) (kind : Nat) (m : Image) (floor : Nat) : Nat :=
  if !hdrOk m.hdr kind then 0x02
  else if m.hdr.gen.toNat < max (s.straps.genMin kind) floor then 0x03
  else if m.hdr.keyslot.toNat ≠ s.verifySlot || !s.usable s.verifySlot then 0x04
  else if !m.sigOk then 0x05
  else if !sectionsOk m kind then 0x06
  else if kind = 1 && !totalOk m then 0x0D
  else if kind = 1 && !deviceChecks (normBody m) s.dev then 0x07
  else 0

/-! ### Compatibility (R102) -/

/-- Whether a list holds a hardware entry for this device. -/
def compatHw (l : List (BitVec 64)) : Bool :=
  l.any fun r => compatKind r == 0 && compatMajor r == hwMajor && compatLow r ≤ hwMinor &&
    hwMinor ≤ compatHigh r

/-- Whether a list holds a partner entry of a kind for a version, the patch ignored. -/
def compatPartner (l : List (BitVec 64)) (kind : Nat) (v : BitVec 32) : Bool :=
  l.any fun r => compatKind r == kind && fld (compatVer r) 16 16 == fld v 16 16

/-- The first failed test of one image against two partners: test 1 hardware entry, 2 partner entry, KIND
of the image, KIND of the missing partner (R453). -/
def compatOne (kind : Nat) (l : List (BitVec 64)) (partners : List (Nat × BitVec 32)) :
    Option (Nat × Nat × Nat) :=
  if !compatHw l then some (1, kind, 0)
  else (partners.find? fun p => !compatPartner l p.1 p.2).map fun p => (2, kind, p.1)

/-- The first failed test of a combination of three images, structure first. -/
def compatTest (str stw lane : List (BitVec 64)) (vStr vStw vLane : BitVec 32) : Option (Nat × Nat × Nat) :=
  (compatOne 1 str [(2, vStw), (3, vLane)]).orElse fun _ =>
    (compatOne 2 stw [(1, vStr), (3, vLane)]).orElse fun _ => compatOne 3 lane [(1, vStr), (2, vStw)]

/-! ### What an epoch may change (R110) -/

/-- Boot parameters with PTMO and VCEIL cut out. -/
def bootFixed (b : ImageBody) : BitVec 512 :=
  b.boot &&& ~~~ (BitVec.ofNat 512 (0xFFFF * 2 ^ 16 + 0xFFFFFFFF * 2 ^ 64))

/-- Records `0` to `n - 1` are equal. -/
def recsEq {w : Nat} (n : Nat) (a b : List (BitVec w)) : Bool :=
  (List.range n).all fun i => recAt a i == recAt b i

/-- Owner slice of a unit in an image. -/
def unitOwner (b : ImageBody) (u : Nat) : Option Nat := (poolOfUnit b u).map poolSlice

/-- Differences that no epoch allows; a store unit with a live proxy stays in the store (R353). -/
def State.changeForbidden (s : State) (a b : ImageBody) : Bool :=
  bootFixed a != bootFixed b || a.locked != b.locked || a.cascade != b.cascade ||
  !recsEq 16 a.lanes b.lanes || !recsEq 28 a.domains b.domains ||
  (List.range 984).any (fun k =>
    let x := recAt a.wired k
    let y := recAt b.wired k
    fld x 0 4 != fld y 0 4 || fld x 16 16 != fld y 16 16) ||
  (List.range 1024).any (fun c =>
    let x := recAt a.contexts c
    let y := recAt b.contexts c
    fld x 0 1 != fld y 0 1 || fld x 13 19 != fld y 13 19) ||
  (a.presets ++ b.presets).any (fun r =>
    let u := presetUnit r
    unitOwner a u == unitOwner b u && presetOf a u != presetOf b u) ||
  a.slices.any (fun r => (sliceRec b (fld r 0 12)).any fun q =>
    bit r 24 != bit q 24 || fld r 16 8 != fld q 16 8) ||
  a.groups.any (fun r => (grpRec b (grpNum r)).any fun q => grpWorld r != grpWorld q) ||
  s.cas.pxUnits.any fun u =>
    (unitOwner b u).isSome && s.cas.proxies.any fun p => p.2.live && unitOf p.1 == u

/-- A slice is QUIESCED or UNASSIGNED. -/
def State.atRest (s : State) (i : Nat) : Bool := (s.slc i).state = .quiesced || (s.slc i).state = .unassigned

/-- An extent is kept, or grows at its end onto units that no extent holds. -/
def extentGrows (a b : ImageBody) (i : Nat) : Bool :=
  match poolOfSlice a i, poolOfSlice b i with
  | none, none => true
  | some x, some y =>
    poolFirst x == poolFirst y && poolCount x ≤ poolCount y &&
    (List.range (poolCount y - poolCount x)).all fun k =>
      (poolOfUnit a (poolFirst x + poolCount x + k)).isNone
  | _, _ => false

/-- A source holds a taken delivery: it is ACTIVE or ACTIVE_PENDING, or an entry of a stack that is not void names it.
-/
def State.holdsDelivery (s : State) (n : Nat) : Bool :=
  (s.entry n).state = .active || (s.entry n).state = .activePending ||
    s.ctxs.any fun p => p.2.stack.any fun x => x.src == n && !x.void

/-- A change that needs a slice QUIESCED finds it otherwise. -/
def State.changeBusy (s : State) (a b : ImageBody) : Bool :=
  ((a.pools ++ b.pools).map poolSlice).any (fun i => !extentGrows a b i && !s.atRest i) ||
  (List.range 1024).any (fun c => ctxRecInUse a c && ctxRecSlice a c != ctxRecSlice b c &&
    (!s.atRest (ctxRecSlice a c) || !s.atRest (ctxRecSlice b c) || (s.ctx c).stack != [])) ||
  (List.range 984).any (fun k =>
    let x := recAt a.wired k
    let y := recAt b.wired k
    wiredSlice x != wiredSlice y &&
      (!s.atRest (wiredSlice x) || !s.atRest (wiredSlice y) || s.holdsDelivery (16 + k))) ||
  a.slices.any fun r => (sliceRec b (fld r 0 12)).isNone && (s.slc (fld r 0 12)).state != .quiesced

/-- Whether the ROUTE of any entry names a group. -/
def State.routeNamed (s : State) (g : Nat) : Bool :=
  s.arr.cells.any (fun p => p.2.rmode && routeGrp p.2.route == g) ||
  s.arr.base.any fun p => p.2.rmode && routeGrp p.2.route == g &&
    (s.arr.cells.filter fun q => isMsg q.1 && unitOf q.1 == p.1).length < 512

/-- A source is PENDING on a group, in its queues, or PRESENTED on it; its ROUTE may have changed since (R158). -/
def State.groupServes (s : State) (g : Nat) : Bool :=
  (s.ownerQ (1024 + g)).qs.any (fun p => p.2 ≠ []) ||
    s.ctxs.any fun p => p.2.pres.any fun x => x.grp == some g && !x.gone

/-- A group that is removed, or whose limit falls below its run-time count, is in use. -/
def State.changeGroups (s : State) (a b : ImageBody) : Bool :=
  a.groups.any fun r =>
    let g := grpNum r
    (match grpRec b g with
      | none => true
      | some q => grpLimit q < (s.grp g).members.length) && (s.routeNamed g || s.groupServes g)

/-- The code of R109 for a new structure, 0 where every condition holds. -/
def State.changeCode (s : State) (b : ImageBody) : Nat :=
  let a := s.img.active
  if s.changeForbidden a b then 0x09
  else if s.changeBusy a b then 0x0A
  else if s.changeGroups a b then 0x0B
  else 0

/-! ### Staging (R107, R108, R420) -/

/-- A staging is refused with a code. -/
def State.stageRefuse (s : State) (code : Nat) : State :=
  s.onImg fun i => { i with stage := .refused, fail := code, staged := none }

/-- The fetch of a staged image on MEM_, which carries nothing but the start while the block starts: it begins at READY
(R67, R74; DEDUCED, assumption log entry 99). -/
def State.fetchStaged (s : State) : State :=
  if s.img.stage = .fetching && s.serving then s.stwRequest false s.img.stageAddr s.img.fetchLen [] else s

/-- A write of STAGE = 1. -/
def State.stageBegin (s : State) : State :=
  match s.img.stage with
  | .fetching => s.onImg fun i => { i with fail := 0x0C }
  | .verifying => s.onImg fun i => { i with fail := 0x0C }
  | .staged => s.onImg fun i => { i with fail := 0x0C }
  | .commitPending => s.onImg fun i => { i with fail := 0x0C }
  | _ =>
    if s.img.stageLen = 0 then s.stageRefuse 0x02
    else
      let t := s.onImg fun i => { i with stage := .fetching, staged := none, fetchLen := i.stageLen }
      t.fetchStaged.wakeFor [dSTW] 5

/-- The code a fetched image is refused with, or 0: LEN, verification, qualification with the running
firmware, changes. -/
def State.stageCode (s : State) (m : Image) (stw lane : List (BitVec 64)) : Nat :=
  if m.hdr.length.toNat ≠ s.img.fetchLen then 0x02
  else
    let code := s.verify 1 m s.img.activeGen
    if code ≠ 0 then code
    else if (compatTest (compatOf m) stw lane m.hdr.version s.img.stwVer s.img.laneVer).isSome then 0x08
    else s.changeCode (normBody m)

/-- Fetch and verification of a staged image end; a fetch that met a memory FAULT is refused with a code
that no rule states (assumption log entry 1). -/
def State.stageEnd (s : State) (r : MemEnd) (m : Image) : State :=
  if s.img.stage = .fetching || s.img.stage = .verifying then
    if !r.ok then (s.stageRefuse (Config.stagingFaultCode s.free % 256)).drawn
    else
      let code := s.stageCode m s.img.stwCompat s.img.laneCompat
      if code = 0 then s.onImg fun i => { i with stage := .staged, staged := some { m with body := normBody m } }
      else s.stageRefuse code
  else s

/-- The proxies and queue links of a unit end before it is cleared (R358). -/
def State.emptyUnit (s : State) (u : Nat) : State :=
  let mine (n : Nat) : Bool := isMsg n && unitOf n == u
  let t := (s.arr.pla.filter fun p => mine p.1).foldl (fun t p => t.onSource p.1 fun v => v.unlink p.1) s
  let t := (s.cas.fwds.filter fun p => mine p.1).foldl (fun t p =>
    match p.2 with
    | some f => (t.sendE2e f.dev (s.entry p.1).urgent
        (.proxy 4 (gsrcOf s.dev p.1) 0 0 0 (BitVec.ofNat 14 (f.proxy.getD 0)))).setFwd p.1 none
    | none => t) t
  t.onArr fun a => { a with masked := a.masked.filter fun n => !mine n }

/-- Units whose owner differs between the present structure and a new one. -/
def State.movedUnits (s : State) (b : ImageBody) : List Nat :=
  (List.range unitCount).filter fun u =>
    unitOwner s.img.active u != unitOwner b u || s.img.orphanUnits.contains u

/-- A unit may be cleared for a commit: the pool of a FROZEN or RESTORING slice stays (R290). -/
def State.unitFree (s : State) (u : Nat) : Bool :=
  s.img.orphanUnits.contains u || !(unitOwner s.img.active u).any s.frozenSlice

/-- Units are cleared to a new image's presets and have no owner until it is active. -/
def State.clearMoved (s : State) (b : ImageBody) (us : List Nat) : State :=
  us.foldl (fun t u =>
    let o := unitOwner b u
    (t.emptyUnit u).clearUnit u (unitBaseOf b u (o.getD 0) ((o.bind (recWorld b)).getD false))) s

/-- A write of COMMIT = 1: the units that change owner are cleared to the new image's presets, those of a FROZEN or
RESTORING slice once it is neither (DEDUCED, assumption log entry 93). -/
def State.stageCommit (s : State) : State :=
  match s.img.staged with
  | some m =>
    if s.img.stage = .staged then
      let us := (s.movedUnits m.body).filter s.unitFree
      let t := s.onImg fun i => { i with stage := .commitPending, cleared := us == s.movedUnits m.body }
      ((t.clearMoved m.body us).onImg fun i => { i with orphanUnits := us }).wakeFor [dSTW] 5
    else s.onImg fun i => { i with fail := 0x0C }
  | none => s.onImg fun i => { i with fail := 0x0C }

/-- Cleared units whose commit does not happen stay without an owner (R108, R469). -/
def State.disown (s : State) : State :=
  s.img.orphanUnits.foldl (fun t u => t.setBase u { SMap.get {} t.arr.base u with slice := 0, world := false }) s

/-- A write of DISCARD = 1. The model's choice: it returns STAGE to NONE in every state, FETCHING and REFUSED among them
(DESIGN CHOICE, assumption log entry 69). -/
def State.stageDiscard (s : State) : State :=
  s.disown.onImg fun i => { i with stage := .none, staged := none, cleared := false }

/-- A write of GLB_EPOCH_CTL. The model's choice: bits set together act in the order STAGE, COMMIT, DISCARD (DESIGN
CHOICE, assumption log entry 69). -/
def State.epochCtl (s : State) (v : BitVec 64) : State :=
  let t := if bit v 0 then s.stageBegin else s
  let t := if bit v 1 then t.stageCommit else t
  if bit v 2 then t.stageDiscard else t

/-! ### The structure an image sets (R61 step 10, R89, R103, R108) -/

/-- The store units (R353): the highest units that no extent holds, at most 32, those that must stay first. -/
def storeUnits (b : ImageBody) (keep : List Nat) : List Nat :=
  if casRole b = 0 then []
  else
    (keep ++ ((List.range unitCount).reverse.filter fun u =>
      (unitOwner b u).isNone && !keep.contains u)).take 32

/-- SLICE of a locked source: the owner of the context or group it routes to (R89). The model's choice: a fixed route to
another device takes the owner of this device's context of the same number (DESIGN CHOICE, assumption log entry 63). -/
def lockedSlice (b : ImageBody) (r : BitVec 64) : Nat :=
  if lockedRmode r then ((grpRec b (routeGrp (lockedRoute r))).map grpSlice).getD 0
  else ctxRecSlice b (routeCtx (lockedRoute r))

/-- The entry step 10 writes for a locked source. -/
def lockedEntry (b : ImageBody) (r : BitVec 64) : Entry :=
  let n := fld r 0 21
  { en := true, trig := n < 14, world := lockedWorld r, sov := isSov n,
    prio := if isSov n then 0 else lockedPrio r, route := lockedRoute r, rmode := lockedRmode r,
    vec := lockedVec r, slice := BitVec.ofNat 12 (lockedSlice b r) }

/-- The entry step 10 writes for a wired line. -/
def wiredEntry (r : BitVec 32) : Entry :=
  { trig := wiredTrig r, world := wiredWorld r, slice := BitVec.ofNat 12 (wiredSlice r) }

/-- Locked and wired entries of an image. The model's choice: a locked record that names another source than 0 to 15 or
1,000 to 1,023 is written as listed (DESIGN CHOICE, assumption log entry 63). -/
def State.loadEntries (s : State) (b : ImageBody) : State :=
  let t := b.locked.reverse.foldl (fun t r => t.setEntry (fld r 0 21) (lockedEntry b r)) s
  b.wired.zipIdx.foldl (fun t p => t.setEntry (16 + p.2) (wiredEntry p.1)) t

/-- The unit bases of an image: units of extents and units with a preset. -/
def State.loadUnits (s : State) (b : ImageBody) : State :=
  let t := b.presets.foldl (fun t r =>
    t.setBase (presetUnit r) (unitBaseOf b (presetUnit r) 0 false)) s
  b.pools.foldl (fun t r => (List.range (poolCount r)).foldl (fun t k =>
    let u := poolFirst r + k
    t.setBase u (unitBaseOf b u (poolSlice r) ((recWorld b (poolSlice r)).getD false))) t) t

/-- A slice as its record sets it (R91, R280). -/
def newSlice (b : ImageBody) (r : BitVec 256) : Slc :=
  let sh := sliceShare r
  { state := .quiesced, clean := true, info := sliceInfo b (fld r 0 12) r, staged := sh, live := sh }

/-- The reaction code of every class with a record (R96, R399). -/
def reactMap (b : ImageBody) : SMap Nat :=
  (b.reactions.filter fun r => reactClass r ≠ 0x80).foldl (fun m r => SMap.put (reactClass r) (reactCode r) m) []

/-- The reactions of an image (R96, R399). -/
def State.loadReactions (s : State) (b : ImageBody) : State := s.onSaf fun x => { x with react := reactMap b }

/-- The record of the watchdog timeout (R400). -/
def timerRec (b : ImageBody) : Option (BitVec 16) := b.reactions.find? fun r => reactClass r == 0x80

/-- The watchdog timeout of an image (R400). -/
def State.loadTimer (s : State) (b : ImageBody) : State :=
  s.onSaf fun x => { x with tmr := ((timerRec b).map reactCode).getD 125 }

/-- Step 10: pools, locked fields, contexts, groups, slices, reactions and domain owners. The model's choice: of several
records that name one slice, group, unit or source the first counts (DESIGN CHOICE, assumption log entry 95). -/
def State.loadStructure (s : State) (b : ImageBody) : State :=
  let t := ((s.onImg fun i => { i with active := b }).loadReactions b).loadTimer b
  let t := (t.loadEntries b).loadUnits b
  let t := t.onCtxs fun m => (List.range 1024).foldl (fun m c =>
    SMap.set {} m c { inUse := ctxRecInUse b c, slice := if ctxRecInUse b c then ctxRecSlice b c else 0,
                      ptmo := bootPtmo b }) m
  let t := b.groups.reverse.foldl (fun t r => t.onGrp (grpNum r) fun _ => grpOfRec r) t
  let t := b.slices.reverse.foldl (fun t r => t.onSlc (fld r 0 12) fun _ => newSlice b r) t
  let t := t.onCas fun c => { c with role := casRole b, pxUnits := storeUnits b [] }
  t.onPwr fun p =>
    { p with owner := (List.range 28).foldl (fun m d => maskSet m d (domWorld (recAt b.domains d))) 0,
             deepest := (List.range 28).foldl (fun m d => SMap.set 0 m d (domDeepest (recAt b.domains d))) [] }

/-- What SAFE_MINIMAL uses of a structure image (R103). -/
def safeBody (b : ImageBody) : ImageBody :=
  { ImageBody.empty with wired := b.wired, locked := b.locked, fallback := b.fallback,
                         profiles := b.profiles, reactions := b.reactions }

/-- The entry of a source in SAFE_MINIMAL: the fallback route of a wired source, nothing else enabled. -/
def fallbackEntry (b : ImageBody) (n : Nat) (e : Entry) : Entry :=
  let r := recAt b.fallback n
  if n < 1000 && n ≠ 14 && n ≠ 15 && fbValid r && (isSov n || wiredInUse (wiredRec b n)) then
    { e with en := true, route := fbRoute r, rmode := false, vec := fbVec r,
             prio := if isSov n then 0 else fbPrio r }
  else { e with en := false }

/-- Step 10 in SAFE_MINIMAL: it has no contexts or groups record, so SLICE of a locked source is 0 (DESIGN CHOICE,
assumption log entry 63). -/
def State.loadSafe (s : State) (b : ImageBody) : State :=
  let x := safeBody b
  let t := (((s.onImg fun i => { i with active := x }).loadReactions x).loadTimer x).loadEntries x
  (List.range 1024).foldl (fun t n => t.onEntry n (fallbackEntry b n)) t

/-! ### The epoch (R108) -/

/-- A slice at an epoch: added, removed, changed by the image, or left as it runs. -/
def epochSlice (a b : ImageBody) (i : Nat) (x : Slc) : Slc :=
  match sliceRec b i with
  | none => {}
  | some r =>
    match sliceRec a i with
    | none => newSlice b r
    | some q =>
      let y := { x with info := sliceInfo b i r }
      if q = r then y
      else { y with staged := sliceShare r, live := sliceShare r, pend := none }

/-- A group at an epoch: changed ones take the image's membership. -/
def epochGroup (a b : ImageBody) (g : Nat) (x : Grp) : Grp :=
  match grpRec b g with
  | none => {}
  | some r =>
    if grpRec a g = some r then x
    else { grpOfRec r with empty := x.empty, emptyCnt := x.emptyCnt, lastop := x.lastop, mchg := x.mchg }

/-- The staged structure becomes active. -/
def State.applyEpoch (s : State) (m : Image) : State :=
  let a := s.img.active
  let b := m.body
  let t := s.onSlcs fun l => ((a.slices ++ b.slices).map fun r => fld r 0 12).eraseDups.foldl
    (fun l i => SMap.set {} l i (epochSlice a b i (SMap.get {} l i))) l
  let t := t.onGrps fun l => ((a.groups ++ b.groups).map grpNum).eraseDups.foldl
    (fun l g => SMap.set {} l g (epochGroup a b g (SMap.get {} l g))) l
  let t := t.onCtxs fun l => (List.range 1024).foldl (fun l c =>
    if recAt a.contexts c = recAt b.contexts c && bootPtmo a = bootPtmo b then l
    else SMap.upd {} l c fun x =>
      { x with slice := if ctxRecInUse b c then ctxRecSlice b c else 0,
               ptmo := if bootPtmo a = bootPtmo b then x.ptmo else bootPtmo b }) l
  let t := (List.range 984).foldl (fun t k =>
    if wiredSlice (recAt a.wired k) = wiredSlice (recAt b.wired k) then t
    else t.onEntry (16 + k) fun e => { e with slice := BitVec.ofNat 12 (wiredSlice (recAt b.wired k)) }) t
  let t := b.locked.reverse.foldl (fun t r =>
    t.onEntry (fld r 0 21) fun e => { e with slice := BitVec.ofNat 12 (lockedSlice b r) }) t
  let t := if timerRec a = timerRec b then t.loadReactions b else (t.loadReactions b).loadTimer b
  let live := s.cas.pxUnits.filter fun u => s.cas.proxies.any fun p => p.2.live && unitOf p.1 == u
  let t := t.onCas fun c => { c with pxUnits := storeUnits b live }
  t.onImg fun i =>
    { i with active := b, activeGen := m.hdr.gen.toNat, activeVer := m.hdr.version,
             compat := (compatOf m), digest := imageDigest m, staged := none, stage := .none,
             cleared := false, orphanUnits := [], epochs := satInc 16 i.epochs, last := s.now }

/-- The clearing that a commit still waits for goes on (R108, R290). -/
def State.clearRest (s : State) (b : ImageBody) : State :=
  if s.img.cleared then s
  else
    let us := (s.movedUnits b).filter fun u => !s.img.orphanUnits.contains u && s.unitFree u
    (s.clearMoved b us).onImg fun i =>
      { i with orphanUnits := i.orphanUnits ++ us
               cleared := (s.movedUnits b).all fun u => i.orphanUnits.contains u || us.contains u }

/-- A structure epoch boundary: the commit happens, is refused, or waits for AT or the clearing (R108, R109). The model's
choice: AT is read at each boundary, so a write of GLB_EPOCH_AT moves a pending epoch (DESIGN CHOICE, assumption log
entry 94). -/
def State.epoch (s : State) : State :=
  match s.img.staged with
  | some m =>
    if s.img.stage = .commitPending then
      let t := s.clearRest m.body
      if t.img.cleared && t.img.at_ ≤ t.now then
        let code := t.changeCode m.body
        if code = 0 then t.applyEpoch m else t.disown.stageRefuse code
      else t
    else s
  | none => s

end Sys2Proof.Machine
end

