-- ==== Sys2Proof/Machine/Upstream.lean ====
section
/-!
DEFINITION. Which port gives the time: what a port's partner offers, the choice of the upstream, its loss, the timebase
that runs free (R70, R258, R264, R269).
-/

namespace Sys2Proof.Machine

/-! ### Timebase states that the cascade forces (R264, R266) -/

/-- TIME_UNALIGNED is set and self-source 1,004 raised (R264). -/
def State.unaligned (s : State) : State :=
  (s.onBoot fun b => { b with timeUnaligned := true }).linkState 0 4 0

/-- The timebase becomes FREE. -/
def State.tbFree (s : State) : State :=
  (s.onTb fun t => { t with state := .free, hops := 0, offs := [], goodRun := 0, jumps := 0 }).unaligned

/-- What a port knows of its markers. -/
def State.mark (s : State) (p : Nat) : MarkPort := SMap.get {} s.tb.marks p

def State.onMark (s : State) (p : Nat) (f : MarkPort → MarkPort) : State :=
  s.onTb fun t => { t with marks := SMap.upd {} t.marks p f }

/-! ### Upstream choice (R258, R264) -/

/-- A port offers time: its partner's confirmed STATUS names fewer than 7 hops to a source that is neither
FREE nor in holdover. -/
def State.offers (s : State) (p : Nat) : Bool :=
  let k := s.mark p
  (s.lport p).state = .up && k.hops < 7 && k.state ≠ 0 && k.state ≠ 4

/-- The port with the fewest hops, the lower number among equals. -/
def State.chooseUp (s : State) : Option Nat :=
  (List.range 7).findSome? fun h => (List.range 4).find? fun p => s.offers p && (s.mark p).hops == h

/-- HOLD in microseconds, saturating (R269). -/
def State.holdNow (s : State) : Nat :=
  if s.tb.state = .holdover then min 1048575 ((s.now.toNat - s.tb.holdFrom.toNat) / 4000) else s.tb.hold

/-- Take a port as the upstream and re-align by slewing; before READY the state is ALIGNING. -/
def State.follow (s : State) (p : Nat) : State :=
  let h := s.holdNow
  s.onTb fun t =>
    { t with state := if s.boot.mode = .starting then .aligning else .slewing, uport := p,
             hops := min 7 ((s.mark p).hops + 1), hold := h, offs := [], goodRun := 0, jumps := 0, slew := 0 }

/-- A device that takes time from an upstream. -/
def Tb.tracking (t : Tb) : Bool := t.state = .aligning || t.state = .slewing || t.state = .aligned

/-- The upstream is lost: another port at once, else HOLDOVER with the last steering (R264). -/
def State.upLost (s : State) : State :=
  if !s.tb.tracking then s
  else
    match s.chooseUp with
    | some p => if p = s.tb.uport then s.onTb fun t => { t with state := .holdover, holdFrom := s.now, hold := 0 }
                else s.follow p
    | none => s.onTb fun t => { t with state := .holdover, holdFrom := s.now, hold := 0 }

end Sys2Proof.Machine
end

