-- ==== Sys2Proof/Machine/Cascade.lean ====
section
/-!
DEFINITION. Link ports, membership and topology, proxies, E2E reception, alarms, batches (R331 to R366).
-/

namespace Sys2Proof.Machine

/-! ### Topology (R336, R341, R350) -/

/-- The row of this device in the MAP: 4 bits per port, {valid, neighbour DEVID}. -/
def State.ownRow (s : State) : Nat :=
  ((List.range 4).map fun p =>
    if (s.lport p).state = .up then ((s.lport p).pdev % 8 + 8) * 2 ^ (4 * p) else 0).sum

/-- Pairings of a REPORT, read as one byte per port, {valid, neighbour DEVID} in [3:0] (assumption log entry
20, PRESUMED). -/
def rowOfPairings (v : BitVec 32) : Nat :=
  ((List.range 4).map fun p => fld v (8 * p) 4 * 2 ^ (4 * p)).sum

/-- The pairings of this device. -/
def State.ownPairings (s : State) : BitVec 32 :=
  BitVec.ofNat 32 ((List.range 4).map fun p => fld (BitVec.ofNat 16 s.ownRow) (4 * p) 4 * 2 ^ (8 * p)).sum

/-- Write the row of a device. -/
def Cas.setRow (c : Cas) (d row : Nat) : Cas :=
  { c with map := (c.map &&& ~~~ BitVec.ofNat 128 (0xFFFF <<< (16 * d))) |||
                    BitVec.ofNat 128 (row % 65536 <<< (16 * d)) }

/-- MEMBERS of an acting headwater: the devices its MAP reaches. -/
def State.reachable (s : State) : BitVec 8 :=
  BitVec.ofNat 8 ((List.range 8).map fun d =>
    if Cas.reach s.cas 8 s.dev d then 2 ^ d else 0).sum

/-- Every kept frame goes again on the new path, in E2E order (R341). -/
def State.resendKept (s : State) : State :=
  s.cas.e2e.foldl (fun t p => (p.2.kept.take 1024).foldl (fun t f => t.sendTo p.1 f) t) s

/-- A TOPO frame of this device. -/
def State.topoFrame (s : State) (dst op : Nat) (urgent : Bool) (data : BitVec 128) : Frame :=
  s.frame dst urgent 0
    (.topo (BitVec.ofNat 8 op) (BitVec.ofNat 8 s.cas.epoch) (BitVec.ofNat 3 s.cas.hwdev) s.cas.members data)

/-- A TOPO frame that is flooded on. -/
def State.topoOn (s : State) (p op : Nat) (m : TopoMsg) : State :=
  if m.hw.toNat = s.dev then s
  else s.flood (some p) { s.frame 0 false 0 (.topo (BitVec.ofNat 8 op) m.epoch m.hw m.members m.data) with
                          org := m.hw }

/-- Send this device's REPORT to the headwater, once step 13 of a start has begun (R69, R334, R336). -/
def State.sendReport (s : State) : State :=
  if s.cas.hwdev = s.dev || (s.boot.mode = .starting && s.boot.step < 13) then s
  else s.sendTo s.cas.hwdev (s.topoFrame s.cas.hwdev 2 false
    (BitVec.ofNat 128 (Config.deviceSerial.toNat + s.ownPairings.toNat * 2 ^ 96)))

/-- Firings held for a device that has returned are sent (R355). -/
def State.sendHeld (s : State) (d : Nat) : State :=
  s.cas.fwds.foldl (fun t q => match q.2 with
    | some f =>
      if f.dev == d && !f.closing then
        match f.held with
        | some st =>
          (t.setFwd q.1 (some { f with held := none })).sendE2e d (s.entry q.1).urgent
            (.event (BitVec.ofNat 64 (s.fullStamp st)) (gsrcOf s.dev q.1) 0 (BitVec.ofNat 14 (f.proxy.getD 0)))
        | none => t
      else t
    | none => t) s

/-- New MEMBERS. -/
def State.newMembers (s : State) (m : BitVec 8) : State :=
  let t := s.onCas fun c => { c with members := m }
  ((List.range 8).filter fun d => bit m d && !bit s.cas.members d).foldl State.sendHeld t

/-- A link enters or leaves UP: the headwater floods a new MAP, another device reports (R350). -/
def State.linkChanged (s : State) : State :=
  if s.cas.role = 2 then
    let t := s.onCas fun c => { c.setRow s.dev s.ownRow with mapKnown := true }
    let t := t.newMembers t.reachable
    (t.flood none (t.topoFrame 0 5 false t.cas.map)).resendKept
  else s.sendReport

/-! ### Ports (R345, R348, R366) -/

/-- What a session held is gone. -/
def LPort.noSession (x : LPort) : LPort :=
  { x with seq := 0, expect := 0, replayBuf := [], batch := [], relayq := [], nak := false, lastTag := none,
           stalls := 0, failRun := 0, txBatch := 0, rxBatch := 0,
           lanes := { x.lanes with down := none, downs := 0, txq := [], swap := none } }

def LAuth.noSession (x : LAuth) : LAuth :=
  { x with step := 0, hello := none, ownHello := [], transcript := [], certOk := false, keys := none, alarmTx := 0, alarmRx := 0,
           accepted := [], qRepeat := [] }

/-- A port has left UP: the device that takes time over it loses its upstream (R264). -/
def State.upstreamGone (s : State) (p : Nat) : State :=
  if s.tb.tracking && s.tb.uport = p then s.upLost else s

/-- A port goes DOWN with a reason; the retry interval doubles after a failed attempt and is 1 ms after the
port has been UP. `what` is the event code of class 0x23: 1 DOWN, 3 authentication failed. A QUARANTINED port stays one
(R366). -/
def State.portDown (s : State) (p reason what : Nat) : State :=
  if (s.lport p).state = .quarantined then s else
  let x := s.lport p
  let wasUp := x.state = .up
  let retry := if wasUp || x.retry = 0 then 1 else min 100 (2 * x.retry)
  let t := (s.onLport p fun y => { y.noSession with state := .down, reason := reason, retry := retry }
    ).onLauthOf p LAuth.noSession
  let t := t.onTb fun b => { b with marks := SMap.erase p b.marks }
  let t := if wasUp || what = 3 then t.linkState p what reason else t
  if wasUp then (t.upstreamGone p).linkChanged else t

/-- A headwater that has gone READY alone and now joins a device is the time source again: its time is the reference, so
TIME_UNALIGNED clears (R70, R258). -/
def State.headwaterJoins (s : State) : State :=
  if s.cas.role = 2 && s.tb.state = .free && !s.tb.onAoclk then
    let t := (s.onTb fun b => { b with state := .source, hops := 0 }).onBoot fun b => { b with timeUnaligned := false }
    if s.boot.timeUnaligned then t.linkState 0 5 0 else t
  else s

/-- A port comes UP. -/
def State.portUp (s : State) (p : Nat) : State :=
  (((s.onLport p fun y => { y with state := .up, retry := 1 }).linkState p 2 (s.lport p).reason).headwaterJoins
    ).linkChanged

/-- A port becomes QUARANTINED; it keeps its keys, replay is off. -/
def State.portQuarantine (s : State) (p : Nat) : State :=
  ((s.onLport p fun y => { y with state := .quarantined, replayBuf := [], batch := [], relayq := [] }
    ).upstreamGone p).linkState p 1 (s.lport p).reason

/-- The alarms of a port that wait for room are sent, each with the token of the port's direction that is next (R363,
R366). -/
def State.flushAlarms (s : State) (p : Nat) : State :=
  ((s.lport p).relayq.filter fun f => bodyType f.body = 6).foldl (fun t f => t.transmit p f) s

/-- Alarms not yet sent and TOPO QUARANTINE go out on every port that is UP, then each becomes QUARANTINED (R366). -/
def State.quarantineAll (s : State) : State :=
  (s.upPorts.foldl (fun t p =>
    ((t.flushAlarms p).transmit p (t.topoFrame (t.lport p).pdev 7 true 0)).portQuarantine p) s).linkChanged

/-- What a key that stops being USABLE takes with it: the ports of the link key, a staging, an
authentication, an attestation (R366, R420); `before` is the state in which it was USABLE. -/
def State.keysLost (s before : State) : State :=
  let t := if before.usable 5 && !s.usable 5 then s.quarantineAll else s
  let t := if (before.usable 5 && !s.usable 5) || (before.usable 0 && !s.usable 0) then
      ((List.range 4).filter fun p => (s.lport p).state = .auth).foldl (fun t p => t.portDown p 5 3) t
    else t
  let t := if t.mbx.busy && t.mbx.cmd = 2 && before.usable 0 && !s.usable 0 then
      t.onMbx fun m => { m with unusable := true }
    else t
  if (t.img.stage = .fetching || t.img.stage = .verifying) && !t.usable t.verifySlot then t.stageRefuse 0x04
  else t

/-! ### Proxies (R349, R353 to R361) -/

/-- Port of the path to a device; without one the port at which it is the partner, else 0. -/
def State.portTo (s : State) (d : Nat) : Nat :=
  ((s.nextHop d).orElse fun _ => (List.range 4).find? fun p => (s.lport p).pdev == d).getD 0

/-- Sources of the proxy store. -/
def State.storeSrcs (s : State) : List Nat :=
  s.cas.sortedUnits.flatMap fun u => (List.range 512).map fun i => unitFirst u + i

/-- A firing of a source is still in the window, a spillway or resolution. -/
def State.inFlight (s : State) (n : Nat) : Bool :=
  s.cfl.window.any (fun w => w.src == n) || s.cfl.res.any fun f => f.src == n

/-- Sources of the store that hold no live proxy and no firing in flight of one that has ended. -/
def State.freeProxies (s : State) : List Nat := s.storeSrcs.filter fun n => !(s.proxy n).live && !s.inFlight n

/-- Refuse an OPEN or HANDOFF, or a firing, of a global source; `u` that it is sovereign or express (R346). -/
def State.sendRefused (s : State) (gsrc : Nat) (u : Bool) (cause : BitVec 8) (px : Nat) : State :=
  s.sendE2e (gsrc / 2 ^ 21) u
    (.pret 2 cause (BitVec.ofNat 24 gsrc) (BitVec.ofNat 14 px) 0 0)

/-- CAUSE of a PRET REFUSED for a slice that is not ACTIVE (R356). -/
def sliceClosed : BitVec 8 := 5

/-- CAUSE of a refused OPEN or HANDOFF, which is not that of a refused firing (R354, R356). -/
def openCause (k : Nat) : BitVec 8 := if Config.refuseCause k = sliceClosed then 0 else Config.refuseCause k

/-- Why the store refuses a proxy for an entry, or the source it takes; which free one is a free value
(R354, assumption log entry 1). -/
def State.allotProxy (s : State) (e : Entry) : Except (BitVec 8) Nat :=
  let c := routeCtx e.route
  let l := s.freeProxies
  if l.isEmpty then .error (openCause 0)
  else if e.world ≠ ctxWorld c then .error (openCause 1)
  else if !(s.ctx c).inUse then .error (openCause 2)
  else .ok (l.getD (Config.freeProxy s.free % l.length) 0)

/-- Write a new proxy: its entry with the owner slice of the target context, its stamp and flags. -/
def State.writeProxy (s : State) (n gsrc : Nat) (e : Entry) (stamp : BitVec 32) (fl : BitVec 8)
    (handoff : Bool) : State :=
  let firing := bit fl 2
  let e' : Entry := { e with state := if firing then .pending else .idle, rmode := false,
                             slice := BitVec.ofNat 12 (s.ctx (routeCtx e.route)).slice }
  let t := (s.writeEntry n e').onProxy n fun _ =>
    { live := true, gsrc := gsrc, level := bit fl 3, isLevel := e.trig, handoff := handoff }
  let t := if firing then
      (t.onPla n fun p => { p with stamp := stamp, promoted := bit fl 0, missed := bit fl 1 }).armPromotion n
    else t
  if firing && e.en then t.tailLink n
  else if !firing && e.en && e.trig && bit fl 3 then t.becomePending n (lo32 s.now)
  else t

/-- PROXY OPEN at the target (R354). -/
def State.proxyOpened (s : State) (gsrc : Nat) (e : Entry) (stamp : BitVec 32) (fl : BitVec 8) : State :=
  match s.allotProxy e with
  | .error c => s.sendRefused gsrc e.urgent c 0
  | .ok n =>
    let t := (s.writeProxy n gsrc e stamp fl false).drawn
    t.sendE2e (gsrc / 2 ^ 21) e.urgent
      (.pret 1 0 (BitVec.ofNat 24 gsrc) (BitVec.ofNat 14 (t.proxyIdx n)) 0 0)

/-- PROXY HANDOFF at the target (R361). -/
def State.proxyHanded (s : State) (gsrc : Nat) (e : Entry) (stamp : BitVec 32) (fl : BitVec 8) : State :=
  match s.allotProxy e with
  | .error c => s.sendRefused gsrc e.urgent c 0
  | .ok n =>
    let t := (s.writeProxy n gsrc e stamp (fl ||| 4) true).drawn
    if s.memberOk (routeCtx e.route) then t else t.endProxy n 4 .pending true

/-- A handed-off proxy that is not yet selected goes back, one of a level source also when its level has fallen
meanwhile (R357, R361). -/
def State.handoffBack (s : State) (n : Nat) : State :=
  if (s.proxy n).live && (s.proxy n).handoff then
    s.onSource n fun s => match (s.entry n).state with
      | .pending => s.endProxy n 4 .pending true
      | .idle => s.endProxy n 4 .idle false
      | _ => s
  else s

/-- Handed-off proxies whose member has stopped being eligible go back (R361). -/
def State.handoffSweep (s : State) : State :=
  s.cas.proxies.foldl (fun t p =>
    if p.2.live && p.2.handoff && !t.memberOk (routeCtx (t.entry p.1).route) then t.handoffBack p.1 else t) s

/-- PROXY CFG at the target: a commit under R158 (R355). -/
def State.proxyCommit (s : State) (gsrc : Nat) (e : Entry) : State :=
  match s.findProxy gsrc with
  | none => s
  | some n => s.commitEntry n { e with rmode := false,
                                       slice := BitVec.ofNat 12 (s.ctx (routeCtx e.route)).slice }

/-- PROXY CLOSE at the target (R358). -/
def State.proxyClosing (s : State) (gsrc : Nat) : State :=
  match s.findProxy gsrc with
  | none => s
  | some n =>
    (s.onProxy n fun x => { x with closing := true }).onSource n fun t =>
    if (t.entry n).state = .presented then
      match t.presCtx n with
      | some c => t.requestRevoke c
      | none => t
    else t.settle n

/-- A purge of one proxy, as a slice purge ends a source, counted in PX_DROP of the port towards its home
(R288 steps 3 to 5, R349, R358). -/
def State.dropProxy (s : State) (n : Nat) : State :=
  let home := (s.proxy n).gsrc / 2 ^ 21
  let t := match s.presCtx n with
    | some c => match (s.ctx c).pres with
      | some p => s.purgePres (s.entry n).slice.toNat c { p with gone := true }
      | none => s
    | none => s
  let t := t.ctxs.foldl (fun u q =>
    if q.2.stack.any fun e => e.src == n && !e.void then
      u.onCtx q.1 fun y =>
        { y with stack := y.stack.map fun e => if e.src == n then { e with void := true } else e }
    else u) t
  let t := (t.onSource n fun v => v.unlink n).freeProxy n
  t.onLauthOf (s.portTo home) fun a => { a with pxDrop := satInc 16 a.pxDrop }

/-- PROXY CLOSE_DISCARD at the target (R358). -/
def State.proxyDiscard (s : State) (gsrc : Nat) : State :=
  match s.findProxy gsrc with
  | some n => s.dropProxy n
  | none => s

/-! ### PRET at the home (R354, R356, R358, R361) -/

/-- A FORWARDED entry comes home in a state, its firings merged under R152 with the earlier stamp; `head`
links it in front. A fixed route to another device opens a proxy again. -/
def State.bringBack (s : State) (n : Nat) (firing : Option (BitVec 32)) (fl : BitVec 8) (head : Bool) :
    State :=
  let e := s.entry n
  let held := (s.fwd n).bind Fwd.held
  let t := s.setFwd n none
  let t := if firing.isSome && held.isSome then t.countMerged n else t
  match firing.orElse fun _ => held with
  | none =>
    let t := t.setSt n .idle
    if t.remoteRoute e.rmode e.route then t.openProxy n else t
  | some st =>
    let st := match firing, held with
      | some a, some b => if olderStamp b a then b else a
      | _, _ => st
    let t := (t.setSt n .pending).onPla n fun p =>
      { p with stamp := st, promoted := firing.isSome && bit fl 0, missed := firing.isSome && bit fl 1,
               linked := false, next := 0 }
    let t := t.armPromotion n
    if t.remoteRoute e.rmode e.route then t.openProxy n
    else if !e.en then t
    else if head then t.headLink n else t.tailLink n

/-- An update of the FORWARDED entry that a PRET names, if this device is its home. -/
def State.atHome (s : State) (gsrc : BitVec 24) (f : Nat → State → State) : State :=
  let n := gsrc.toNat % 2 ^ 21
  if gsrc.toNat / 2 ^ 21 = s.dev && (s.fwd n).isSome then
    s.onSource n fun t => if (t.entry n).state = .forwarded then f n t else t
  else s

/-- PRET OPENED. -/
def State.pretOpened (s : State) (gsrc : BitVec 24) (px : BitVec 14) : State :=
  s.atHome gsrc fun n s => s.setFwd n ((s.fwd n).map fun f => { f with proxy := some px.toNat })

/-- RRPTR moves to a remote member that is still in its group's list. -/
def State.rrToRemote (s : State) (g : Option (Nat × BitVec 13)) : State :=
  match g with
  | some (g, m) =>
    if (s.grp g).members.contains m then s.onGrp g fun x => { x with rrptr := x.members.idxOf m } else s
  | none => s

/-- PRET HANDBACK; a level source that was withdrawn at the member comes back IDLE (R357, R361). -/
def State.pretHandback (s : State) (gsrc : BitVec 24) (stamp : BitVec 32) (fl : BitVec 8) : State :=
  s.atHome gsrc fun n s =>
    let fell := (s.entry n).trig && fld fl 4 3 = 0 && !bit fl 2
    (s.bringBack n (if fell then none else some stamp) fl true).rrToRemote ((s.fwd n).bind Fwd.grp)

/-- PRET RETURNED (R358, R361). -/
def State.pretReturned (s : State) (gsrc : BitVec 24) (stamp : BitVec 32) (fl : BitVec 8) : State :=
  s.atHome gsrc fun n s => s.bringBack n (if fld fl 4 3 = 1 || bit fl 2 then some stamp else none) fl false

/-- A refused firing counts in the refusal counter of the source's owner slice under cause 0x5 (R356). -/
def State.countClosed (s : State) (n : Nat) : State :=
  match s.sourceSlice n with
  | some i => s.onSlcCnt i fun c => { c with closed := satInc 32 c.closed }
  | none => s

/-- PRET REFUSED: of a firing, of an OPEN, or of a hand-off (as a HANDBACK) (R354, R356, R361). -/
def State.pretRefused (s : State) (org : Nat) (gsrc : BitVec 24) (cause : BitVec 8) : State :=
  s.atHome gsrc fun n s =>
    match s.fwd n with
    | none => s
    | some f =>
      let t := s.linkState (s.portTo org) 6 (s.lport (s.portTo org)).reason
      if f.proxy.isSome || cause = sliceClosed then t.countClosed n
      else
        match f.grp with
        | some g => (t.bringBack n f.firing (pretFlags (s.plaOf n) true false .idle) true).rrToRemote (some g)
        | none =>
          let e := s.entry n
          let st := f.firing.orElse fun _ => f.held
          let t := t.setFwd n none
          match st with
          | some v =>
            if e.trig then t.setEntry n { e with en := false, state := .idle }
            else
              ((t.setEntry n { e with en := false, state := .pending }).onPla n fun p =>
                { p with linked := false, next := 0 }).writeStamp n v
          | none => t.setEntry n { e with en := false, state := .idle }

/-! ### Reception in E2E order (R341, R356, R142) -/

/-- EVENT for a proxy: the level copy, the slice check, a window entry; none while no entry is free. -/
def State.eventFrame (s : State) (stamp : BitVec 64) (gsrc : BitVec 24) (kind : BitVec 8) : Option State :=
  let k : Option FKind := match kind.toNat with
    | 0 => some .fire
    | 1 => some .assert
    | 2 => some .deassert
    | _ => none
  match k, s.findProxy gsrc.toNat with
  | some k, some n =>
    let i := (s.entry n).slice.toNat
    if k = .fire && !s.sliceActive i then some (s.sendRefused gsrc.toNat (s.entry n).urgent sliceClosed (s.proxyIdx n))
    else
      let t := if k = .fire then s else s.onProxy n fun x => { x with level := k = .assert }
      t.enterWindow 0 n i stamp (t.express n) 5 k
  | _, _ => some s

/-- Domains that a frame body needs (R377). -/
def State.bodyDoms (s : State) : FrameBody → List Nat
  | .event .. => [dCFL]
  | .proxy _ g .. =>
    dWEIR :: (match s.findProxy g.toNat with
      | some n => [dARR n]
      | none => (s.cas.pxUnits.map fun u => dARR (unitFirst u)).eraseDups)
  | .pret _ _ g .. => [dWEIR, dARR (g.toNat % 2 ^ 21)]
  | _ => []

/-- What a frame body asks of this device. -/
def State.bodyWork (s : State) (org : Nat) (b : FrameBody) : Option State :=
  match b with
  | .event st g k _ => s.eventFrame st g k
  | .proxy op g en st fl _ =>
    some (match op.toNat with
      | 1 => s.proxyOpened g.toNat (Entry.ofWord en) st fl
      | 2 => s.proxyCommit g.toNat (Entry.ofWord en)
      | 3 => s.proxyClosing g.toNat
      | 4 => s.proxyDiscard g.toNat
      | 5 => s.proxyHanded g.toNat (Entry.ofWord en) st fl
      | _ => s)
  | .pret op ca g px st fl =>
    some (match op.toNat with
      | 1 => s.pretOpened g px
      | 2 => s.pretRefused org g ca
      | 3 => s.pretReturned g st fl
      | 4 => s.pretHandback g st fl
      | _ => s)
  | _ => some s

/-- A frame body in its turn; none while the link receiver must hold it, for a window entry or a domain (R142,
R386). -/
def State.applyBody (s : State) (org : Nat) (b : FrameBody) : Option State :=
  if s.allAvail (s.bodyDoms b) then s.bodyWork org b else none

/-- Apply the held frames that are next in order, and acknowledge what was applied. -/
def State.drainE2e (s : State) (org : Nat) : Nat → State
  | 0 => s
  | k + 1 =>
    let e := s.e2eOf org
    match e.held.find? fun f => f.e2e.toNat == e.exp with
    | none => s
    | some f =>
      match s.applyBody org f.body with
      | none => s
      | some t =>
        let t := t.onE2e org fun x => { x with exp := (x.exp + 1) % 65536,
                                               held := x.held.filter fun g => g.e2e ≠ f.e2e }
        (t.sendTo org (t.frame org false 0 (.ack (BitVec.ofNat 16 (t.e2eOf org).exp)))).drainE2e org k

/-- An EVENT, PROXY or PRET frame arrives: applied in E2E order, a duplicate discarded, up to 64 frames held
ahead of a gap (R341), its domains woken; discarded after a FATAL reaction (R437). -/
def State.receive (s : State) (h : RxHdr) (b : FrameBody) : State :=
  if s.fatal.inSeq then s.late
  else
    let org := h.org.toNat
    let e := s.e2eOf org
    let ahead := (h.e2e.toNat + 65536 - e.exp) % 65536
    if 64 < ahead || e.held.any (fun f => f.e2e == h.e2e) then s
    else
      let f : Frame := { urgent := false, nak := false, replay := false, seq := 0, ack := 0, dst := 0,
                         org := h.org, e2e := h.e2e, body := b }
      let ds := s.bodyDoms b
      let t := (s.onE2e org fun x => { x with held := x.held ++ [f] }).touch ds
      if t.allAvail ds then t.drainE2e org 65 else t.wakeFor ds 3

/-- Frames that waited for a window entry are tried again (R142); after a FATAL reaction none is applied (R437). -/
def State.pumpLinks (s : State) : State :=
  s.unlessFatal fun s => s.cas.e2e.foldl (fun t p => if p.2.held.isEmpty then t else t.drainE2e p.1 65) s

/-- An ACK frame: kept frames it passes are released, waiting ones go out (R341). -/
def State.e2eAcked (s : State) (org ack : Nat) : State :=
  let e := s.e2eOf org
  let rest := e.kept.dropWhile fun f =>
    let d := (ack + 65536 - f.e2e.toNat) % 65536
    1 ≤ d && d ≤ 32768
  let freed := e.kept.length - rest.length
  let t := s.onE2e org fun x => { x with kept := rest }
  ((rest.take 1024).drop (1024 - freed)).foldl (fun t f => t.sendTo org f) t

/-! ### Membership (R349, R352, R355) -/

/-- An entry whose proxy a restarted member has lost returns to IDLE and, where its route leads there, opens a proxy
again; a firing held at the home stays held for that one (R349, R354; DEDUCED, assumption log entry 86). -/
def State.reopen (s : State) (n : Nat) : State :=
  let e := s.entry n
  let held := (s.fwd n).bind Fwd.held
  let t := (s.setFwd n none).setSt n .idle
  if t.remoteRoute e.rmode e.route then
    let u := t.openProxy n
    u.setFwd n ((u.fwd n).map fun f => { f with held := held })
  else t

/-- A member's BOOTCNT has changed: its proxies end, entries forwarded to it come back and open again, and
E2E restarts; the firings held for it are sent while it is a member (R355). -/
def State.memberRestarted (s : State) (d : Nat) : State :=
  let t := s.onE2e d fun _ => {}
  let t := (s.cas.proxies.filter fun p => p.2.live && p.2.gsrc / 2 ^ 21 == d).foldl
    (fun t p => t.dropProxy p.1) t
  let t := s.cas.fwds.foldl (fun t q => match q.2 with
    | some f => if f.dev == d then t.reopen q.1 else t
    | none => t) t
  if t.isMember d then t.sendHeld d else t

/-- Learn a member's BOOTCNT. -/
def State.learnBoot (s : State) (d : Nat) (cnt : Nat) : State :=
  let old := SMap.get 0 s.cas.boots d
  let t := s.onCas fun c => { c with boots := SMap.set 0 c.boots d (cnt + 1) }
  if old ≠ 0 && old ≠ cnt + 1 then t.memberRestarted d else t

/-- BOOTCNT per device of a HEARTBEAT, 0 for one that is not known. -/
def State.bootData (s : State) : BitVec 128 :=
  BitVec.ofNat 128 ((List.range 8).map fun d =>
    (if d = s.dev then s.boot.bootcnt else SMap.get 0 s.cas.boots d - 1) % 65536 * 2 ^ (16 * d)).sum

/-- The acting headwater floods HEARTBEAT (R350). -/
def State.heartbeat (s : State) : State :=
  if s.cas.role = 2 then s.flood none (s.topoFrame 0 4 false s.bootData) else s

/-- Whether a device must follow a HEARTBEAT in place of the headwater it follows now (R352). -/
def State.mustFollow (s : State) (m : TopoMsg) : Bool :=
  s.cas.epoch < m.epoch.toNat || (s.cas.epoch == m.epoch.toNat && m.hw.toNat ≤ s.cas.hwdev)

/-- A received HEARTBEAT (R349, R352). -/
def State.heard (s : State) (p : Nat) (m : TopoMsg) : State :=
  if s.mustFollow m && m.hw.toNat ≠ s.dev then
    let t := if s.cas.role = 2 then (s.onCas fun c => { c with role := 1 }).tbFree else s
    let t := t.onCas fun c => { c with epoch := m.epoch.toNat, hwdev := m.hw.toNat }
    let t := (List.range 8).foldl (fun u d =>
      if d ≠ s.dev && bit m.members d && fld m.data (16 * d) 16 ≠ 0 then u.learnBoot d (fld m.data (16 * d) 16)
      else u) t
    (t.newMembers m.members).topoOn p 4 m
  else s

/-- The standby takes the role; a timebase that is the source no longer runs free (R70, R71, R265, R351). -/
def State.takeover (s : State) : State :=
  if s.cas.role = 3 && casStandby s.img.active ≠ 0xFF then
    let t := s.onCas fun c => { c with role := 2, epoch := (c.epoch + 1) % 256, hwdev := s.dev }
    let h := s.holdNow
    let t := t.onTb fun b => { b with state := .source, hops := 0, hold := h, offs := [], goodRun := 0, slew := 0 }
    (t.onBoot fun b => { b with timeUnaligned := false }).linkChanged.heartbeat
  else s

/-- A new MAP (R341). -/
def State.newMap (s : State) (p : Nat) (m : TopoMsg) : State :=
  (if s.cas.mapKnown && s.cas.map = m.data then s
   else (s.onCas fun c => { c with map := m.data, mapKnown := true }).resendKept).topoOn p 5 m

/-- An EXCLUDE: every port DOWN for good, and READY alone is up to the caller (R334). -/
def State.exclude (s : State) : State :=
  let t := s.onCas fun c => { c with excluded := true }
  ((List.range 4).filter fun p => (s.lport p).state ≠ .disabled && (s.lport p).state ≠ .quarantined).foldl
    (fun t p => t.portDown p 4 1) t

/-- The port on which an EXCLUDE leaves: that of a partner whose certificate has the serial reported, else the one towards
a neighbour that the REPORT names, else the one towards the DEVID (R334; DESIGN CHOICE, assumption log entry 88). -/
def State.excludePort (s : State) (org : Nat) (serial : BitVec 96) (pairings : BitVec 32) : Option Nat :=
  let near := s.upPorts.find? fun p => (s.lauthOf p).certOk && (s.lauthOf p).serial == serial
  let side := (List.range 4).findSome? fun q =>
    if bit pairings (8 * q + 3) then
      let d := fld pairings (8 * q) 3
      if d = s.dev then s.upPorts.find? fun p => (s.lport p).pdev == org else s.nextHop d
    else none
  near.orElse fun _ => side.orElse fun _ => s.nextHop org

/-- A REPORT at the headwater: a duplicate DEVID is excluded, else serial, MAP row and alignment are noted
(R69, R334, R350). -/
def State.report (s : State) (org : Nat) (serial : BitVec 96) (pairings : BitVec 32) (al : Bool) : State :=
  if s.cas.role ≠ 2 then s
  else
    let known := if org = s.dev then Config.deviceSerial else SMap.get 0 s.cas.serials org
    if known ≠ 0 && known ≠ serial then
      match s.excludePort org serial pairings with
      | some p => s.sendOn p (s.topoFrame org 6 false 0)
      | none => s
    else
      let old := s.cas.map
      let t := s.onCas fun c =>
        { (c.setRow org (rowOfPairings pairings)).setRow s.dev s.ownRow with
          serials := SMap.set 0 c.serials org serial, mapKnown := true,
          aligned := if al then c.aligned ||| BitVec.ofNat 8 (2 ^ org) else c.aligned &&& ~~~ BitVec.ofNat 8 (2 ^ org) }
      let t := t.newMembers t.reachable
      if t.cas.map ≠ old then (t.flood none (t.topoFrame 0 5 false t.cas.map)).resendKept else t

/-- Every device of the cascade has reported itself aligned (R69). -/
def State.allAligned (s : State) : Bool :=
  let n := casDevCount s.img.active
  let others := (List.range 8).filter fun d => d ≠ s.dev && bit s.cas.members d && bit s.cas.aligned d
  others.length + 1 == n

/-! ### Summaries (R359, R360) -/

/-- One 20-bit entry. -/
def State.summaryEntry (s : State) (c : Nat) : BitVec 20 :=
  BitVec.ofNat 20 (c + s.summaryAvail c * 2 ^ 10 +
    b2n (bit (s.port (ctxPort c)).awake (ctxHart c)) * 2 ^ 19)

/-- Every 64 ns: up to 8 contexts, those that have changed since they were last sent first, the oldest change in front,
then the next of the rotation. -/
def State.summarySend (s : State) : State :=
  let s := s.noteAvail
  let l := s.wideCtxs
  let queue := s.cas.changed.filter fun c => l.contains c
  let first := queue.take 8
  let rot := (l.filter (s.cas.rotation ≤ ·) ++ l.filter (· < s.cas.rotation)).filter fun c => !first.contains c
  let extra := rot.take (8 - first.length)
  let out := first ++ extra
  let t := s.onCas fun c =>
    { c with changed := queue.drop 8,
             rotation := match extra.getLast? with
               | some x => x + 1
               | none => c.rotation }
  t.flood none (t.frame 0 false 0 (.summary (out.map s.summaryEntry)))

/-- A received SUMMARY, flooded on. -/
def State.summaryHeard (s : State) (p org : Nat) (es : List (BitVec 20)) : State :=
  if org = s.dev then s
  else
    let t := s.onCas fun c =>
      { c with avail := (es.take 8).foldl (fun m e =>
          SMap.set {} m (mkRoute org (fld e 0 10)).toNat
            { rank := fld e 10 9, awake := bit e 19, tick := s.now }) c.avail }
    t.flood (some p) { t.frame 0 false 0 (.summary es) with org := BitVec.ofNat 3 org }

/-! ### Alarms (R362 to R364, R428) -/

/-- DETAIL of class 0x28. -/
def alarmDetail (suspect failed : Bool) (line org : Nat) : Nat :=
  b2n suspect * 2 ^ 15 + b2n failed * 2 ^ 14 + line % 32 * 2 ^ 8 + org % 8

/-- The alarm record of a port; word 0 is the capture stamp. -/
def State.alarmRecord (s : State) (p : Nat) (stamp : BitVec 64) (detail : Nat) : State :=
  s.logAt stamp 0x28 none 4 (p * 16) detail

/-- Alarms remembered for 1 ms. -/
def State.knownAlarm (s : State) (org : BitVec 3) (line : BitVec 5) (stamp : BitVec 64) : Bool :=
  s.cas.alarms.any fun a => a.1 == org && a.2.1 == line && a.2.2.1 == stamp &&
    s.now.toNat ≤ a.2.2.2.toNat + 4000000

/-- The offset of a token among the next four values of a counter. -/
def tokenMatch (key : BitVec 256) (n : BitVec 64) (tok : BitVec 96) : Option (BitVec 64) :=
  [0, 1, 2, 3].find? fun k => Config.alarmToken key (n + k) == tok

/-- A received ALARM. -/
def State.alarmHeard (s : State) (p : Nat) (stamp : BitVec 64) (org : BitVec 3) (line : BitVec 5)
    (tok : BitVec 96) : State :=
  if (s.lport p).state ≠ .up && (s.lport p).state ≠ .quarantined then s
  else if s.fatal.inSeq then s.late
  else
    match (s.lauthOf p).keys.bind fun k => tokenMatch k.alarmRx (s.lauthOf p).alarmRx tok with
    | none =>
      ((s.onLauthOf p fun a => { a with suspect := satInc 16 a.suspect }).latchRaise 14 stamp).alarmRecord p
        stamp (alarmDetail true false line.toNat org.toNat)
    | some k =>
      let t := s.onLauthOf p fun a => { a with alarmRx := a.alarmRx + k + 1,
                                               accepted := a.accepted ++ [(org, line, stamp)] }
      if s.knownAlarm org line stamp then t
      else
        let t := t.onCas fun c =>
          { c with alarms := (c.alarms.filter fun a => s.now.toNat ≤ a.2.2.2.toNat + 4000000) ++
                               [(org, line, stamp, s.now)] }
        ((t.latchRaise 15 stamp).alarmRecord p stamp (alarmDetail false false line.toNat org.toNat)).alarmOut
          (some p) stamp org.toNat line.toNat

/-- An accepted alarm whose batch fails: it stands, SUSPECT counts, its record is marked or written again
(R364, R428). -/
def State.alarmDoubt (s : State) (p : Nat) (a : BitVec 3 × BitVec 5 × BitVec 64) : State :=
  let t := s.onLauthOf p fun x => { x with suspect := satInc 16 x.suspect }
  let isIt (r : BitVec 64 × BitVec 64) : Bool :=
    r.1 == a.2.2 && fld r.2 58 6 == 0x28 && fld r.2 16 24 == p * 16 && fld r.2 0 3 == a.1.toNat &&
      fld r.2 8 5 == a.2.1.toNat && !bit r.2 15
  let idx := ((List.range s.saf.unread).map fun k => (s.saf.tail + k) % 256).find? fun i =>
    isIt (SMap.get (0, 0) s.saf.log i)
  match idx with
  | some i => t.onSaf fun x => { x with log := SMap.put i ((SMap.get (0, 0) x.log i).1,
                                                           (SMap.get (0, 0) x.log i).2 ||| 0x4000) x.log }
  | none => t.alarmRecord p a.2.2 (alarmDetail false true a.2.1.toNat a.1.toNat)

/-- A QUARANTINED port sends the next due repeat of an ALARM with a fresh token (R363, R366). -/
def State.alarmRepeat (s : State) (p : Nat) : State :=
  match (s.lauthOf p).qRepeat with
  | [] => s
  | (f, k) :: rest =>
    let t := s.callDom (dLNK p) 3
    if t.avail (dLNK p) then
      (t.onLauthOf p fun x => { x with qRepeat := if k ≤ 1 then rest else rest ++ [(f, k - 1)] }).alarmBatch p f
    else t

/-! ### Replay and batches (R339, R340, R346, R347) -/

/-- One frame again, with REPLAY set; it carries the port's ACK and a NAK that is due, and an ALARM takes a fresh token
(R340, R363). -/
def State.resendOne (s : State) (p : Nat) (f : Frame) : State :=
  let x := s.lport p
  let (s, f) := s.tokened p f
  let g : Frame := { f with replay := true, ack := x.expect, nak := x.nak }
  let t := s.onLport p fun y => { y with batch := y.batch ++ [g], nak := false, lanes := y.lanes.line g false }
  if f.urgent || (t.lport p).batch.length ≥ 32 then t.closeBatch p else t

/-- Send again from a SEQ, in order and in new batches; after 64 replays in a row without progress the port goes DOWN
(R340, R346). -/
def State.replayFrom (s : State) (p : Nat) (seq : BitVec 12) : State :=
  match (s.lport p).replayBuf.dropWhile fun f => f.seq ≠ seq with
  | [] => s
  | fs =>
    if 64 ≤ (s.lport p).stalls then (s.failPort 0x10 p 0 3).portDown p 7 1
    else
      let t := (s.closeBatch p).onLauthOf p fun a => { a with replays := satInc 16 a.replays }
      fs.foldl (fun t f => t.resendOne p f) (t.onLport p fun y => { y with stalls := y.stalls + 1 })

/-- An ACK field passes the frames before it. -/
def State.acked (s : State) (p : Nat) (ack : BitVec 12) : State :=
  let buf := (s.lport p).replayBuf
  let rest := buf.dropWhile fun f => let d := (ack - f.seq).toNat; 1 ≤ d && d ≤ 2048
  (s.onLport p fun x => { x with replayBuf := rest,
                                 stalls := if rest.length < buf.length then 0 else x.stalls }).drainPort p

/-- No progress for 1 µs: replay from the oldest. -/
def State.replayStall (s : State) (p : Nat) : State :=
  match (s.lport p).replayBuf with
  | [] => s
  | f :: _ => if (s.lport p).state = .up then s.replayFrom p f.seq else s

/-- Room for a relayed frame: 256 of other devices wait on the outgoing port; this device's own that wait there do not
count (R341). -/
def State.relayRoom (s : State) (dst : Nat) : Bool :=
  match s.nextHop dst with
  | some q => ((s.lport q).relayq.filter fun f => f.org.toNat ≠ s.dev).length < 256
  | none => false

/-- A frame for this device whose port ACK the link receiver gives: one of an E2E kind that lies no more than 64 ahead,
and an EVENT once a window entry is free for it (R142, R341). -/
def State.linkRoom (s : State) (f : Frame) : Bool :=
  let ahead := (f.e2e.toNat + 65536 - (s.e2eOf f.org.toNat).exp) % 65536
  match f.body with
  | .event st g k _ => ahead ≤ 64 && (s.eventFrame st g k).isSome || 32768 ≤ ahead
  | .proxy .. => ahead ≤ 64 || 32768 ≤ ahead
  | .pret .. => ahead ≤ 64 || 32768 ≤ ahead
  | _ => true

/-- The window entries that the events accepted so far will take, on a copy of the state that shows what room is left
for the rest of a batch (R142). -/
def State.afterEvent (s : State) (f : Frame) : State :=
  match f.body with
  | .event st g k _ => (s.eventFrame st g k).getD s
  | _ => s

/-- One frame of a verified batch: its ACK and NAK act, and it is accepted in SEQ order and relayed if it is
for another device. What it asks of this device is a command of its own; `room` shows the window as the events of the
batch before it will leave it. -/
def State.acceptFrame (s room : State) (p : Nat) (f : Frame) : State × State :=
  let t := s.acked p f.ack
  let t := if f.nak then t.replayFrom p f.ack else t
  let exp := (t.lport p).expect
  if f.seq = exp then
    if f.dst.toNat = s.dev then
      if room.linkRoom f then (t.onLport p fun x => { x with expect := x.expect + 1 }, room.afterEvent f)
      else (t, room)
    else if t.relayRoom f.dst.toNat then
      ((t.onLport p fun x => { x with expect := x.expect + 1 }).sendTo f.dst.toNat f, room)
    else (t, room)
  else if (exp - f.seq).toNat ≤ 2048 then (t, room)
  else (t.onLport p fun x => { x with nak := true }, room)

/-- The frames of a verified batch. -/
def State.acceptAll (s : State) (p : Nat) (fs : List Frame) : State :=
  (fs.foldl (fun a f => a.1.acceptFrame a.2 p f) (s, s)).1

/-- Whether a batch verifies under the port's key. -/
def State.batchOk (s : State) (p : Nat) (fs : List RxFrame) (mac : BitVec 96) (first : BitVec 12)
    (count : BitVec 8) : Bool :=
  match (s.lauthOf p).keys, fs with
  | some k, f :: _ =>
    fs.all (fun x => x.crcOk) && f.frame.seq == first && fs.length == count.toNat &&
    Config.gmac k.gmacRx k.ivRx (s.lport p).rxBatch (fs.map RxFrame.data) == mac
  | _, _ => false

/-- A TAG frame with the frames of its batch (R340, R347, R366). -/
def State.batchTag (s : State) (p : Nat) (fs : List RxFrame) (mac : BitVec 96) (first : BitVec 12)
    (count : BitVec 8) : State :=
  let bad := (fs.filter fun x => !x.crcOk).length
  let ok := s.batchOk p fs mac first count
  let doubts := (s.lauthOf p).accepted
  let t := s.onLauthOf p fun a => { a with crcErr := satAdd 16 a.crcErr bad, accepted := [] }
  let t := t.onLport p fun x => { x with rxBatch := x.rxBatch + 1, lanes := { x.lanes with rxFrames := [] } }
  match (s.lport p).state with
  | .up =>
    if ok then (t.onLport p fun x => { x with failRun := 0 }).acceptAll p (fs.map RxFrame.frame)
    else
      let t := doubts.foldl (fun t a => t.alarmDoubt p a) t
      let t := (t.onLauthOf p fun a => { a with macFail := satInc 16 a.macFail }).failPort 0x10 p 0 2
      if 2 ≤ (s.lport p).failRun then t.portDown p 6 1
      else t.onLport p fun x => { x with failRun := x.failRun + 1, nak := true }
  | .quarantined =>
    let others := (fs.filter fun x => bodyType x.frame.body ≠ 6).length
    let t := t.onLauthOf p fun a => { a with qdiscard := satAdd 16 a.qdiscard others }
    if ok then t
    else (doubts.foldl (fun t a => t.alarmDoubt p a) t).onLauthOf p fun a =>
      { a with macFail := satInc 16 a.macFail }
  | _ => s

/-! ### Authentication (R333, R342 to R345) -/

/-- The chunks of an authentication message in AUTH frames, 18 bytes each at its offset (R336, R342). -/
def authChunks (step : Nat) (msg : List (BitVec 8)) : List FrameBody :=
  (List.range ((msg.length + 17) / 18)).map fun i =>
    .auth (BitVec.ofNat 8 step) (BitVec.ofNat 16 (18 * i))
      (((msg.drop (18 * i)).take 18).foldr (fun b a => (a <<< 8) ||| b.setWidth 144) 0)

/-- This end's message of a step goes out (R342). -/
def State.authSend (s : State) (p step : Nat) (msg : List (BitVec 8)) : State :=
  s.onLport p fun x =>
    { x with lanes := (authChunks step msg).foldl (fun l b => l.line (x.tagFrame s.dev b) false) x.lanes }

/-- The HELLO of this end (R342). -/
def State.ownHello (s : State) (p : Nat) : HelloMsg :=
  { nonce := Config.ownNonce (s.lauthOf p).attempt, devid := BitVec.ofNat 3 s.dev, port := BitVec.ofNat 2 p,
    hwRole := BitVec.ofNat 2 s.straps.hwRole, epoch := BitVec.ofNat 8 s.cas.epoch,
    bootcnt := BitVec.ofNat 16 s.boot.bootcnt, lanes := BitVec.ofNat 3 (s.lport p).lanes.lanes,
    hwver := BitVec.ofNat 16 hwver }

/-- Authentication begins on a trained port: a fresh nonce and ephemeral key, and HELLO. -/
def State.authBegin (s : State) (p : Nat) : State :=
  if !s.usable 0 || !s.usable 5 then s.portDown p 5 3
  else
    let t := ((s.onLport p fun x => { x.noSession with state := .auth }).onLauthOf p fun a =>
      { a.noSession with attempt := s.free }).drawn
    let m := Config.helloBytes (t.ownHello p)
    (t.onLauthOf p fun a => { a with ownHello := m }).authSend p 1 m

/-- The messages of both ends in a step join the transcript, the lower DEVID's first (R342). -/
def State.transcribe (s : State) (p dev : Nat) (own heard : List (BitVec 8)) : State :=
  s.onLauthOf p fun a =>
    { a with transcript := a.transcript ++ if s.dev < dev then own ++ heard else heard ++ own }

/-- HELLO: DEVID and pairing; this end's CERT goes out. -/
def State.helloHeard (s : State) (p : Nat) (m : HelloMsg) : State :=
  if (s.lport p).state ≠ .auth || (s.lauthOf p).step ≠ 0 then s
  else
    let t := s.onLport p fun x => { x with pdev := m.devid.toNat, pport := m.port.toNat,
                                           pboot := m.bootcnt.toNat }
    if m.devid.toNat = s.dev then t.portDown p 4 3
    else if m.devid.toNat ≠ casNbrDev s.img.active p || m.port.toNat ≠ casNbrPort s.img.active p then
      t.portDown p 3 3
    else
      let t := t.transcribe p m.devid.toNat (t.lauthOf p).ownHello (Config.helloBytes m)
      ((t.onLauthOf p fun a => { a with step := 1, hello := some m }).authSend p 2 Config.certificates).learnBoot
        m.devid.toNat m.bootcnt.toNat

/-- CERT: the checks of R343; this end's KEYX goes out, signed over HELLO and CERT of both ends (R342; DEDUCED, assumption
log entry 87). -/
def State.certHeard (s : State) (p : Nat) (m : CertMsg) : State :=
  if (s.lport p).state ≠ .auth || (s.lauthOf p).step ≠ 1 then s
  else if m.formOk && m.fingerprint == casFingerprint s.img.active && m.caOk && m.issuerOk && m.sigOk &&
      m.usageOk then
    let t := (s.transcribe p (s.lport p).pdev Config.certificates m.der).onLauthOf p fun a =>
      { a with step := 2, certOk := true, serial := m.serial }
    t.authSend p 3
      (bytesBE 97 (Config.ownEphemeral (s.lauthOf p).attempt) ++
        Config.sign (s.slot 0).key (t.lauthOf p).transcript)
  else s.portDown p 5 3

/-- Session keys of a port (R344), the lower DEVID's direction first. -/
def State.deriveKeys (s : State) (p : Nat) (h : HelloMsg) (pub : BitVec 776) : SessKeys :=
  let a := s.lauthOf p
  let lower := s.dev < h.devid.toNat
  let mine := Config.ownNonce a.attempt
  let eph := Config.ownEphemeral a.attempt
  let info := if lower then s.dev * 2 ^ 9 + p * 2 ^ 6 + h.devid.toNat * 2 ^ 3 + h.port.toNat
    else h.devid.toNat * 2 ^ 9 + h.port.toNat * 2 ^ 6 + s.dev * 2 ^ 3 + p
  let k (i : Nat) : BitVec 256 :=
    if lower then Config.sessionKey (s.slot 5).key mine h.nonce eph pub info i
    else Config.sessionKey (s.slot 5).key h.nonce mine pub eph info i
  let tx := if lower then 0 else 1
  { gmacTx := k tx, gmacRx := k (1 - tx), alarmTx := k (2 + tx), alarmRx := k (3 - tx),
    ivTx := (k (4 + tx)).extractLsb' 0 32, ivRx := (k (5 - tx)).extractLsb' 0 32 }

/-- KEYX: the partner's signature, the session keys, and this end's CONFIRM: one ACK frame and its TAG. -/
def State.keyxHeard (s : State) (p : Nat) (m : KeyxMsg) : State :=
  if (s.lport p).state ≠ .auth || (s.lauthOf p).step ≠ 2 then s
  else
    match (s.lauthOf p).hello with
    | none => s
    | some h =>
      if !m.sigOk || !s.usable 0 || !s.usable 5 then s.portDown p 5 3
      else
        let t := s.onLauthOf p fun a => { a with step := 3, keys := some (s.deriveKeys p h m.pub) }
        (t.transmit p (t.frame h.devid.toNat false 0 (.ack (BitVec.ofNat 16 (t.e2eOf h.devid.toNat).exp)))
          ).closeBatch p

/-- CONFIRM: the first batch under the new keys. -/
def State.confirmHeard (s : State) (p : Nat) (ok : Bool) : State :=
  if (s.lport p).state ≠ .auth || (s.lauthOf p).step ≠ 3 then s
  else if ok then
    ((s.onLport p fun x => { x with expect := 1, rxBatch := 1 }).onLauthOf p fun a =>
      { a with step := 4, wasUp := true }).portUp p
  else s.portDown p 5 3

end Sys2Proof.Machine
end

