-- ==== Sys2Proof/Machine/Timebase.lean ====
section
/-!
DEFINITION. The timebase: markers and exchanges, the servo, upstream choice, holdover, time faults and the
AOCLK ratio (R251 to R270, R337, R338).
-/

namespace Sys2Proof.Machine

/-! ### Instants (R337) -/

/-- The signed difference of two 48-bit instants, in fifths of 1/64 UI: a tick is 2,048 of them, bits [8:0]
count five each, and the counts are compared modulo 2^39. -/
def instDiff (a b : BitVec 48) : Int :=
  let d := (a.extractLsb' 9 39 - b.extractLsb' 9 39).toInt
  d * 2048 + 5 * ((fld a 0 9 : Int) - (fld b 0 9 : Int))

/-- The instant of now with a fraction that only the serialiser knows (assumption log entry 1). -/
def State.instant (s : State) : BitVec 48 :=
  BitVec.ofNat 48 (s.now.toNat % 2 ^ 39 * 512 + Config.markerFraction s.free % 410)

/-- The measurement registers of a port. -/
def State.tbPort (s : State) (p : Nat) : TbPort := SMap.get {} s.tb.ports p

def State.onTbPort (s : State) (p : Nat) (f : TbPort → TbPort) : State :=
  s.onTb fun t => { t with ports := SMap.upd {} t.ports p f }

/-- The physical lane of a port that is measured: its lowest-numbered logical lane in lock (R259). -/
def State.measuredLane (s : State) (p : Nat) : Nat :=
  let l := (List.range 4).map fun k => 4 * p + k
  ((List.range 4).findSome? fun g =>
    l.find? fun k => (s.lane k).state = .inService && (s.lane k).logical == g).getD (4 * p)

/-- STATE code of TB_ST (R269). -/
def TbState.code : TbState → Nat
  | .free => 0 | .aligning => 1 | .slewing => 2 | .aligned => 3 | .holdover => 4 | .source => 5

/-- The payload of a TIME frame: bytes 1 to 15 of its MARKER (R337, R338). -/
def markerBytes (m : MarkerMsg) : BitVec 120 :=
  BitVec.ofNat 120 (m.hops.toNat + 16 * m.state.toNat + m.seq.toNat * 2 ^ 8 + m.rseq.toNat * 2 ^ 16 +
    m.tA.toNat * 2 ^ 24 + m.tB.toNat * 2 ^ 72)

/-! ### Markers -/

/-- Send a MARKER and its TIME frame on a port that is UP; one in electrical idle carries no markers (R337, R338,
R377). -/
def State.sendMarker (s : State) (p : Nat) : State :=
  if (s.lport p).state ≠ .up || !s.tb.running || (s.lport p).lanes.idleTx then s
  else
    let k := s.mark p
    let r := k.rcvd.headD (0, 0)
    let m : MarkerMsg :=
      { hops := BitVec.ofNat 3 s.tb.hops, state := BitVec.ofNat 3 s.tb.state.code, seq := k.next,
        rseq := r.1, tA := (k.sent.headD (0, 0)).2, tB := r.2 }
    let t := s.onMark p fun x =>
      { x with next := x.next + 1, sent := ((x.next, s.instant) :: x.sent).take 2 }
    let t := t.onLport p fun x => { x with lanes := { x.lanes with txq := x.lanes.txq ++ [.marker m] } }
    (t.drawn).sendOn p (t.frame (t.lport p).pdev false 0 (.time (markerBytes m)))

/-- A received MARKER waits for its TIME frame; `received` is the instant this end measured. -/
def State.markerHeard (s : State) (p : Nat) (m : MarkerMsg) (received : BitVec 48) : State :=
  if (s.lport p).state ≠ .up then s
  else s.onMark p fun x =>
    { x with pending := some m, rcvd := ((m.seq, received) :: x.rcvd).take 2 }

/-! ### Upstream choice (R258) -/

/-- A device without a source takes one that is offered (R258, R264); the headwater has none. -/
def State.seekUp (s : State) : State :=
  if s.cas.role ≠ 0 && s.cas.role ≠ 2 && !s.tb.onAoclk && (s.tb.state = .free || s.tb.state = .holdover) then
    match s.chooseUp with
    | some p => s.follow p
    | none => s
  else s

/-! ### The exchange and the servo (R259, R261) -/

/-- What an exchange gives: rtt and oneway in 1/64 UI, offset in 1/64 tick. -/
structure Exchange where
  rtt    : Int
  oneway : Int
  offset : Int
  deriving DecidableEq, Repr

/-- The exchange of a confirmed MARKER, where this end knows both of its own instants. -/
def State.exchange (s : State) (p : Nat) (m : MarkerMsg) : Option Exchange :=
  let k := s.mark p
  match k.rcvd.find? (fun r => r.1 == m.seq - 1), k.sent.find? (fun r => r.1 == m.rseq) with
  | some t2, some t3 =>
    let l := s.measuredLane p
    let rtt := instDiff m.tB m.tA - instDiff t3.2 t2.2
    let asym := (s.lane l).cal.toInt + (s.tbPort p).asym.toInt
    let oneway := (rtt + 5 * asym) / 2
    some { rtt := rtt / 5, oneway := oneway / 5, offset := (instDiff t2.2 m.tA - oneway) / 32 }
  | _, _ => none

/-- TB_DLYp takes the exchange (R270). -/
def State.recordDelay (s : State) (p : Nat) (x : Exchange) : State :=
  s.onTbPort p fun d =>
    { d with rtt := BitVec.ofInt 24 x.rtt, oneway := BitVec.ofInt 24 x.oneway,
             lane := BitVec.ofNat 2 (s.lane (s.measuredLane p)).logical }

/-- Mean of the offsets, saturating to 32 bits (R269). -/
def meanOffset (l : List Int) : BitVec 32 :=
  let m := l.sum / (max l.length 1 : Int)
  BitVec.ofInt 32 (max (-(2 ^ 31)) (min (2 ^ 31 - 1) m))

/-- Phase steps of 1/64 tick that correct a mean offset, within 4 ticks per exchange (R252, R261). -/
def slewOf (mean : Int) : Int := max (-256) (min 256 (-mean))

/-- The count may be set to the upstream's value in one step: in step 13 of a cold start, before READY (R252). -/
def State.mayStep (s : State) : Bool := s.boot.mode = .starting && !s.boot.warm && s.boot.step = 13

/-- Time is taken from an upstream once step 13 has begun (R69). -/
def State.mayAlign (s : State) : Bool := s.boot.mode ≠ .starting || s.boot.step = 13

/-- ALIGNED is reached; TIME_UNALIGNED clears (R70, R264). -/
def State.reachAligned (s : State) : State :=
  let t := s.onTb fun b => { b with state := .aligned }
  let t := if s.boot.timeUnaligned then
      (t.onBoot fun b => { b with timeUnaligned := false }).linkState s.tb.uport 5 (s.lport s.tb.uport).reason
    else t
  t.sendReport

/-- Two consecutive exchanges beyond 2 ns of an ALIGNED device: the upstream counts as lost, its offer until its next
TIME frame too (R267). -/
def State.offsetJump (s : State) : State :=
  (((s.onTb fun b => { b with jumps := 0, offJump := true }).fail 0x11 none 0 0 5).onMark s.tb.uport
    fun k => { k with hops := 7 }).upLost

/-- The count is set to the upstream's value in one step (R252); the instants that this end has measured are those of
the count as it is now, so that the next exchange finds the offset gone (R259). -/
def Tb.stepBy (t : Tb) (d : Int) : Tb :=
  let shift (l : List (BitVec 8 × BitVec 48)) := l.map fun q => (q.1, q.2 - BitVec.ofInt 48 (d * 512))
  { t with count := t.count - BitVec.ofInt 64 d,
           marks := t.marks.map fun q => (q.1, { q.2 with sent := shift q.2.sent, rcvd := shift q.2.rcvd }) }

/-- The servo takes one exchange of the upstream port; a single one outside the bounds of the time faults is left out of
the mean (R261, R267). The model's choice: before ALIGNED a second such exchange in a row enters it, or a device that
starts far off would never slew back (DEDUCED, assumption log entry 84). -/
def State.servo (s : State) (off : Int) : State :=
  let b := s.tb
  let small := -32 ≤ off && off ≤ 32
  let wild := off < -512 || 512 < off
  if b.state = .aligning && s.mayStep && !small then
    s.onTb fun t =>
      { t.stepBy ((off + 32) / 64) with offs := [], goodRun := 0, slew := 0, offset := meanOffset [off] }
  else if wild && b.jumps = 0 then s.onTb fun t => { t with jumps := 1, goodRun := 0 }
  else if wild && b.state = .aligned then s.offsetJump
  else
    let offs := (off :: b.offs).take 16
    let run := if small then min 16 (b.goodRun + 1) else 0
    let t := s.onTb fun t =>
      { t with offs := offs, offset := meanOffset offs, slew := slewOf (meanOffset offs).toInt,
               jumps := if wild then 1 else 0, goodRun := run }
    if run = 16 && b.state ≠ .aligned then t.reachAligned else t

/-- A TIME frame of a port: with bytes identical to the MARKER that waits, its STATUS counts and its exchange
is used (R338). -/
def State.timeHeard (s : State) (p : Nat) (m : MarkerMsg) : State :=
  if (s.lport p).state ≠ .up then s
  else if s.fatal.inSeq then s.late
  else if (s.mark p).pending ≠ some m then s
  else
    let x := s.exchange p m
    let t := s.onMark p fun k => { k with pending := none, hops := m.hops.toNat, state := m.state.toNat }
    let t := match x with
      | some x => t.recordDelay p x
      | none => t
    if !t.mayAlign then t
    else if t.tb.tracking && t.tb.uport = p then
      if !t.offers p then t.upLost
      else
        let t := t.onTb fun b => { b with hops := min 7 (m.hops.toNat + 1) }
        match x with
        | some x => t.servo x.offset
        | none => t
    else t.seekUp

/-! ### Losses and faults (R264, R267) -/

/-- Markers of the upstream have stopped for 4 µs, or its port is DOWN. -/
def State.markersStopped (s : State) : State :=
  if !s.tb.tracking then s
  else if (s.lport s.tb.uport).state = .up then
    ((s.fail 0x11 none 0 0 4).onMark s.tb.uport fun k => { k with hops := 7 }).upLost
  else s.upLost

/-- 100 ms of HOLDOVER have passed without a source. -/
def State.holdoverEnds (s : State) : State :=
  if s.tb.state = .holdover then (s.onTb fun t => { t with hold := s.holdNow }).tbFree else s

/-- The count runs on from AOCLK and the timebase is FREE; `detail` is that of class 0x11. -/
def State.onAoclk (s : State) (f : Tb → Tb) (detail : Nat) : State :=
  let h := s.holdNow
  ((s.onTb fun t => { f t with onAoclk := true, hold := h, slew := 0 }).fail 0x11 none 0 0 detail).tbFree

/-- PLL_LOST. -/
def State.pllLoss (s : State) : State :=
  if s.tb.running then s.onAoclk (fun t => { t with pllLost := true }) 1 else s

/-- COUNT_MISMATCH: the count continues from the counter that agrees with the rate check. -/
def State.countMismatch (s : State) (good : Tick) : State :=
  if s.tb.running then
    let h := s.holdNow
    ((s.onTb fun t => { t with count := good, countMis := true, hold := h, slew := 0 }).fail 0x11 none 0 0
      2).tbFree
  else s

/-- Ticks counted over 160 AOCLK cycles differ from 160 times the ratio by more than 5 %. -/
def rateFault (ratio ticks : Nat) : Bool :=
  let want := 160 * ratio
  let got := ticks * 1024
  want < 20 * (if got < want then want - got else got - want)

/-- The RATE check. -/
def State.checkRate (s : State) (ticks : Nat) : State :=
  if s.tb.running && rateFault s.tb.aoRatio ticks then s.onAoclk (fun t => { t with rate := true }) 3 else s

/-- The timebase PLL relocks: the count leaves AOCLK, a headwater is SOURCE again and every other device
slews back once a source is offered. -/
def State.pllBack (s : State) : State :=
  if s.tb.onAoclk then
    let t := s.onTb fun t => { t with onAoclk := false }
    if s.cas.role = 2 then
      let u := (t.onTb fun b => { b with state := .source, hops := 0, aoFrac := 0 }).onBoot fun b =>
        { b with timeUnaligned := false }
      if s.boot.timeUnaligned then u.linkState 0 5 0 else u
    else t.seekUp
  else s

/-- One window of 4,096 AOCLK cycles: 40 REFCLK cycles' ticks over it, adopted when it lies within 0.1 % of
the window before (R254). -/
def State.calibrate (s : State) (refCycles : Nat) : State :=
  let r := 10 * refCycles
  s.onTb fun t =>
    { t with aoWindow := some r,
             aoRatio := match t.aoWindow with
               | some q => if 1000 * (if r < q then q - r else r - q) ≤ q then r else t.aoRatio
               | none => t.aoRatio }

/-! ### Meanings -/

/-- AOCLK_CALIBRATION (R254). -/
def execAoclkCalibration (refCycles : BitVec 32) (s : State) : Host.Outcome State Fault Refusal :=
  .next (s.calibrate refCycles.toNat)

/-- MARKER_SEND (R337). -/
def execMarkerSend (p : BitVec 2) (s : State) : Host.Outcome State Fault Refusal := .next (s.sendMarker p.toNat)

/-- MARKER (R337). -/
def execMarker (p : BitVec 2) (m : MarkerMsg) (received : BitVec 48) (s : State) :
    Host.Outcome State Fault Refusal :=
  .next (s.markerHeard p.toNat m received)

/-- HOLDOVER_EXPIRY (R264). -/
def execHoldoverExpiry (s : State) : Host.Outcome State Fault Refusal := .next s.holdoverEnds

/-- PLL_LOST (R267). -/
def execPllLost (s : State) : Host.Outcome State Fault Refusal := .next s.pllLoss

/-- COUNT_MISMATCH (R267). -/
def execCountMismatch (good : BitVec 64) (s : State) : Host.Outcome State Fault Refusal :=
  .next (s.countMismatch good)

/-- RATE_CHECK (R267). -/
def execRateCheck (ticks : BitVec 32) (s : State) : Host.Outcome State Fault Refusal :=
  .next (s.checkRate ticks.toNat)

/-- PLL_RELOCK (R267). -/
def execPllRelock (s : State) : Host.Outcome State Fault Refusal := .next s.pllBack

end Sys2Proof.Machine
end

