-- ==== Sys2Proof/Machine/Lanes.lean ====
section
/-!
DEFINITION. Sheup lanes: the lane map, training and re-anchoring, the stripe and its remaps, electrical idle,
loopbacks and PRBS (R296 to R330).
-/

namespace Sys2Proof.Machine

/-! ### Lanes of a port (R296) -/

/-- Port of a physical lane. -/
def lanePort (l : Nat) : Nat := l / 4

/-- Physical lanes of a port. -/
def portLanes (p : Nat) : List Nat := (List.range 4).map fun k => 4 * p + k

/-- Set or clear a logical lane in a MASK. -/
def laneBit (m : BitVec 4) (k : Nat) (b : Bool) : BitVec 4 :=
  if b then m ||| BitVec.ofNat 4 (2 ^ k) else m &&& ~~~ BitVec.ofNat 4 (2 ^ k)

/-- The powered physical lane that is logical lane `k` of a port. -/
def State.laneAt (s : State) (p k : Nat) : Option Nat :=
  (portLanes p).find? fun l => (s.lane l).state ≠ .disabled && (s.lane l).logical == k && !(s.lane l).dup

/-- Lanes of a port that are powered. -/
def State.usedLanes (s : State) (p : Nat) : List Nat :=
  (portLanes p).filter fun l => (s.lane l).state ≠ .disabled && !(s.lane l).dup

/-- Change the lane layer of a port. -/
def State.onPLanes (s : State) (p : Nat) (f : PortLanes → PortLanes) : State :=
  s.onLport p fun x => { x with lanes := f x.lanes }

/-- The settings a lane map record gives (R95, R327). -/
def mappedCfg (r : BitVec 64) : LaneCfg :=
  { ctleInit := laneCtle r, deemph := laneDeemph r, swing := laneSwing r }

/-- A physical lane as its lane map record sets it: DISABLED beyond the port's lane count, or where a lower
physical lane carries the same logical number. -/
def mappedLane (b : ImageBody) (l : Nat) : Lane :=
  let r := recAt b.lanes l
  let n := casLanes b (lanePort l)
  let dup := (portLanes (lanePort l)).any fun q => q < l && laneLogical (recAt b.lanes q) == laneLogical r
  { state := if laneLogical r < n && !dup then .detect else .disabled, logical := laneLogical r,
    txInv := laneTxInv r, rxInv := laneRxInv r, dup := dup, cfg := mappedCfg r }

/-- Settings with a loopback or PRBS on. -/
def LaneCfg.test (c : LaneCfg) : Bool := c.loop ≠ 0 || c.genEn || c.chkEn

/-- Settings with PRBS on. -/
def LaneCfg.prbs (c : LaneCfg) : Bool := c.genEn || c.chkEn

/-! ### The LANE exchange (R314 to R318) -/

/-- REASON code of a LANE block (R303). -/
def OutReason.code : OutReason → Nat
  | .lost => 0 | .drift => 1 | .test => 2 | .settings => 3

/-- The reason of a REASON code. -/
def OutReason.ofCode (n : Nat) : OutReason :=
  match n with
  | 0 => .lost | 1 => .drift | 2 => .test | _ => .settings

/-- A receiver that has lost its locks; the headers seen count no more (R306). -/
def Lane.unlocked (x : Lane) : Lane := { x with cdrLock := false, blockLock := false, hdrs := [] }

/-- What an end does with a lane that leaves service (R316); cold training starts from CTLE_INIT (R307, R327). -/
def Lane.leave (x : Lane) (r : OutReason) : Lane :=
  let y := { x with reason := some r, tries := 0, phase := 0, upSent := false, upRcvd := false,
                    deferred := false, held := false, testFrom := .inService, rxq := [], rxAhead := 0 }
  match r with
  | .lost =>
    { y.unlocked with state := .retraining, ctle := BitVec.ofNat 4 x.cfg.ctleInit }
  | .drift => { y with state := .out }
  | .settings => { y with state := .out, cfg := x.staged.getD x.cfg, staged := none }
  | .test => { y with state := .test }

/-- Logical lane `k` leaves both stripes of a port; its lane does what the reason says. -/
def State.dropLane (s : State) (p k : Nat) (r : OutReason) : State :=
  let t := s.onPLanes p fun x =>
    { x with txMask := laneBit x.txMask k false, rxMask := laneBit x.rxMask k false,
             nextMask := laneBit x.nextMask k false }
  match s.laneAt p k with
  | some l => t.onLane l fun x => x.leave r
  | none => t

/-- Send a LANE block on every lane in service, at the next frame boundary (R314). -/
def State.sendLane (s : State) (p op k reason : Nat) (mask : BitVec 4) : State :=
  let b : LaneBlk := { op := op, k := k, reason := reason, mask := mask }
  s.onPLanes p fun x => { x.control (.lane b) with sent := some b }

/-- A port that loses its last lane in service is DOWN (R315). -/
def State.lastLaneDown (s : State) (p : Nat) : State :=
  let x := s.lport p
  if x.lanes.txMask = 0 && (x.state = .up || x.state = .auth) then s.portDown p 2 1 else s

/-- This end takes a lane out: DOWN is sent and awaits its DOWN_ACK (R314). -/
def State.takeOut (s : State) (p k : Nat) (r : OutReason) : State :=
  let u := s.dropLane p k r
  let t := u.sendLane p 1 k r.code (u.lport p).lanes.txMask
  t.onPLanes p fun x => { x with down := some (k, r), downs := 1 }

/-- This end removes a lane; a port that loses its last lane is DOWN (R314, R315). -/
def State.removeLane (s : State) (p k : Nat) (r : OutReason) : State := (s.takeOut p k r).lastLaneDown p

/-- A lane that re-anchors (R311, R316). -/
def Lane.anchors (x : Lane) : Bool := x.state = .out && (x.reason = some .drift || x.reason = some .settings)

/-- A lane that the partner has taken out for its test is held until that ends (R320). -/
def State.holdLane (s : State) (p k : Nat) (r : OutReason) : State :=
  match r, s.laneAt p k with
  | .test, some l => s.onLane l fun x => { x with held := true }
  | _, _ => s

/-- A removal that the partner asked for: DOWN_ACK with the same MASK; a DOWN of this end for the same lane
takes it as its acknowledgement (R314). A port whose lone lane re-anchors at the exit from idle is not DOWN (DEDUCED,
assumption log entry 73). -/
def State.laneDowned (s : State) (p k : Nat) (r : OutReason) (mask : BitVec 4) : State :=
  if (s.lport p).state = .disabled then s
  else
    let gone := (List.range 4).filter fun i =>
      i == k || (bit (s.lport p).lanes.rxMask i && !bit mask i)
    let t := gone.foldl (fun t i => (t.dropLane p i r).holdLane p i r) s
    let t := t.onPLanes p fun x => { x with down := if x.down.any fun d => d.1 == k then none else x.down }
    let t := t.sendLane p 2 k r.code mask
    if r = .drift then t else t.lastLaneDown p

/-- DOWN_ACK with the MASK of the DOWN ends the exchange (R314). -/
def State.downAcked (s : State) (p : Nat) (mask : BitVec 4) : State :=
  s.onPLanes p fun x => if x.txMask = mask then { x with down := none } else x

/-- DOWN goes again every 256 ns (R315). -/
def State.downAgain (s : State) (p : Nat) : State :=
  match (s.lport p).lanes.down with
  | some d => (s.sendLane p 1 d.1 d.2.code (s.lport p).lanes.txMask).onPLanes p fun x => { x with downs := x.downs + 1 }
  | none => s

/-- No DOWN_ACK within 1.8 µs (R315). -/
def State.downLost (s : State) (p : Nat) : State :=
  if (s.lport p).lanes.down.isSome then s.portDown p 2 1 else s

/-- Another lane of the port is out of service (R311). -/
def State.otherOut (s : State) (p l : Nat) : Bool :=
  (s.usedLanes p).any fun q => q ≠ l && (s.lane q).state ≠ .inService && (s.lane q).state ≠ .idle

/-- Another lane of the port is in service. -/
def State.otherIn (s : State) (p l : Nat) : Bool :=
  (s.usedLanes p).any fun q => q ≠ l && (s.lane q).state = .inService

/-- A deferred re-anchor begins when another lane is back in service; a port re-anchors one lane at a time (R311). -/
def State.reanchor (s : State) (p : Nat) : State :=
  match (portLanes p).find? fun l => (s.lane l).deferred && (s.lane l).state = .inService with
  | some l =>
    if s.otherIn p l && !(s.usedLanes p).any fun q => (s.lane q).anchors then s.removeLane p (s.lane l).logical .drift
    else s
  | none => s

/-- Lanes that have joined both directions are in service; a deferred re-anchor follows (R296, R311, R318). -/
def State.joinLanes (s : State) (p : Nat) : State :=
  let x := (s.lport p).lanes
  let joins := (portLanes p).filter fun l =>
    let y := s.lane l
    y.upSent && y.upRcvd && bit x.txMask y.logical && bit x.rxMask y.logical
  let t := joins.foldl (fun t l =>
    t.onLane l fun z => { z with state := .inService, reason := none, upSent := false, upRcvd := false }) s
  if joins.isEmpty then t else t.reanchor p

/-- Both UPs of a lane have passed: it is in the MASK of the next ALIGN (R318). -/
def State.upDone (s : State) (p l : Nat) : State :=
  if (s.lane l).upSent && (s.lane l).upRcvd then
    s.onPLanes p fun x => { x with nextMask := laneBit x.nextMask (s.lane l).logical true }
  else s

/-- LANE UP of the partner. -/
def State.upHeard (s : State) (p k : Nat) : State :=
  match s.laneAt p k with
  | some l =>
    if (s.lane l).state = .inService then s
    else (s.onLane l fun x => { x with upRcvd := true }).upDone p l
  | none => s

/-- An ALIGN period: the count rises, ALIGN goes out at the next frame boundary and its MASK holds from the period
after it (R305, R318). -/
def State.alignSent (s : State) (p : Nat) : State :=
  let x := s.lport p
  if x.state = .disabled || x.lanes.idleTx then s
  else
    (s.onPLanes p fun y =>
      { y.control (.align y.nextMask (y.alignCnt + 1)) with alignCnt := y.alignCnt + 1, txMask := y.nextMask }).joinLanes p

/-- A received ALIGN, with the lanes on which it has come: their descramblers are reset, its MASK holds for the lanes
received, or ready to be; the exit from idle ends once it has come on every lane that sends (R297, R304, R313). -/
def State.alignHeard (s : State) (p : Nat) (mask heard : BitVec 4) (count : BitVec 32) : State :=
  if (s.lport p).state = .disabled then s
  else
    let ready (k : Nat) : Bool := bit (s.lport p).lanes.rxMask k ||
      (s.laneAt p k).any fun l => (s.lane l).upSent && (s.lane l).upRcvd
    let m := (List.range 4).foldl (fun m k => laneBit m k (bit mask k && ready k)) (0 : BitVec 4)
    let t := (portLanes p).foldl (fun t l =>
      if bit heard (s.lane l).logical && (s.lane l).state ≠ .disabled then
        (t.onLane l fun x => { x with rxScr := scrReset x.logical, rxAhead := x.rxAhead + 1 }).rxItem l .align
      else t) s
    (t.onPLanes p fun y =>
      let h := y.heard ||| heard
      { y with rxMask := m, heard := h, alignRx := count, waking := y.waking && y.txMask &&& ~~~h ≠ 0,
               idleRx := false }).joinLanes p

/-! ### Losses (R306, R313) -/

/-- A lane that was to be admitted is no longer: it is not in the MASK of the next ALIGN. -/
def State.unadmit (s : State) (p l : Nat) : State :=
  s.onPLanes p fun x => { x with nextMask := laneBit x.nextMask (s.lane l).logical (bit x.txMask (s.lane l).logical) }

/-- A lane is declared lost, whatever it was locked for. In electrical idle the end of the signal is no loss, but a lane
that does not lock again after idle is one (R306, R312, R313). -/
def State.laneLost (s : State) (l : Nat) : State :=
  let p := lanePort l
  let x := s.lane l
  let counted := s.onLcnt l fun c => { c with losses := satInc 16 c.losses }
  match x.state with
  | .inService => counted.removeLane p x.logical .lost
  | .out => (counted.unadmit p l).onLane l fun y => y.leave .lost
  | .idle =>
    if (s.lport p).lanes.waking || !(s.lport p).lanes.idleRx then counted.takeOut p x.logical .lost else s
  | _ =>
    if !x.cdrLock && !x.blockLock then s
    else
      (counted.unadmit p l).onLane l fun y => { y.unlocked with upSent := false, upRcvd := false }

/-! ### Training (R307 to R309, R311) -/

/-- A lane is in cold training. -/
def Lane.coldTraining (x : Lane) : Bool := x.state = .detect || x.state = .training || x.state = .retraining

/-- A lane is in an attempt: cold training, a re-anchor, or the group of a FAILED lane. -/
def Lane.trying (x : Lane) : Bool :=
  !x.upSent && (x.coldTraining || x.state = .out || (x.state = .failed && x.tries < 3))

/-- Training reaches a phase that it has not reached (R307). -/
def Lane.startsPhase (x : Lane) (n : Nat) (now : Tick) : Lane :=
  if x.phase < n then { x with phase := n, phaseFrom := now } else x

/-- A de-emphasis request within 2 codes of the requesting end's mapped code (R309). -/
def clampCode (req mapped : Nat) : Nat := max (mapped - 2) (min (mapped + 2) req)

/-- The lane count of a port; higher logical lanes are DISABLED (R296, R309). -/
def State.laneCount (s : State) (p n : Nat) : State :=
  (portLanes p).foldl (fun t l =>
    if n ≤ (s.lane l).logical && (s.lane l).coldTraining then t.onLane l fun x => { x with state := .disabled }
    else t) (s.onPLanes p fun y => { y with lanes := n })

/-- A TS block: the exchange has started, the port's lane count is the lower of both ends', a de-emphasis request
is applied. A lane the partner held for its test trains with it (R307, R309, R321). -/
def State.tsHeard (s : State) (l : Nat) (m : TsMsg) : State :=
  let p := lanePort l
  let x := s.lane l
  let held := x.state = .test && x.held && !x.cfg.test
  if !(x.coldTraining || held || (x.state = .failed && x.tries < 3)) then s
  else
    let t := s.onLane l fun y =>
      { y.startsPhase 1 s.now with
               state := if y.state = .detect then .training else if held then .retraining else y.state, held := false,
               cfg := if m.reqVal then
                   { y.cfg with deemph := min 15 (clampCode m.deemph.toNat m.mapped.toNat) }
                 else y.cfg }
    t.laneCount p (min (casLanes s.img.active p) m.lanes.toNat)

/-- A port has trained: it authenticates, in a start once step 12 begins (R61, R69). -/
def State.trainedPort (s : State) (p : Nat) : State :=
  if s.boot.mode = .starting && s.boot.step = 11 then s.onLport p fun x => { x with state := .auth } else s.authBegin p

/-- A port in TRAINING whose lanes have all ended goes on with the lanes that pass, or DOWN (R61 exit 0xF,
R308). -/
def State.trainDone (s : State) (p : Nat) : State :=
  if (s.lport p).state ≠ .training || (s.usedLanes p).any fun l => (s.lane l).coldTraining then s
  else if (s.usedLanes p).any fun l => (s.lane l).state = .inService then s.trainedPort p
  else
    let t := s.portDown p 1 1
    if s.boot.mode = .starting then t.linkState p 1 1 else t

/-- A lane enters service without an exchange; the ALIGN phase has reset its scramblers (R307). -/
def State.enterService (s : State) (p l : Nat) : State :=
  let k := (s.lane l).logical
  (s.onLane l fun x => { x with state := .inService, reason := none, upSent := false, upRcvd := false,
                                txScr := scrReset k, rxScr := scrReset k }).onPLanes
    p fun x => { x with txMask := laneBit x.txMask k true, rxMask := laneBit x.rxMask k true,
                        nextMask := laneBit x.nextMask k true, lineMask := laneBit x.lineMask k true }

/-- The lane has its codes and anchors. -/
def Lane.trained (x : Lane) (c : LaneCodes) : Lane :=
  { x with ctle := c.ctle, ctleAnc := c.ctle, bw := c.bw, bwAnc := c.bw, ph := c.ph, phAnc := c.ph, tries := 0,
           phase := 5, cdrLock := true, blockLock := true, deferred := false }

/-- The steward measures the internal asymmetry of a lane that has trained: a free value (R260, R307; assumption log
entry 1). -/
def State.calibrated (s : State) (l : Nat) : State := (s.onLane l fun x => { x with cal := Config.calAsym l s.free }).drawn

/-- An attempt has passed: the lane is admitted by UP, or at once where no lane of the port is in service
(R308, R318). -/
def State.attemptPassed (s : State) (l : Nat) (c : LaneCodes) : State :=
  let p := lanePort l
  let t := (s.onLane l fun x =>
    { x.trained c with state := if x.state = .failed then .retraining else x.state }).calibrated l
  if (s.lport p).state = .training || (s.lport p).lanes.txMask = 0 then (t.enterService p l).trainDone p
  else
    ((t.onLane l fun x => { x with upSent := true }).sendLane p 3 (s.lane l).logical 0 (s.lport p).lanes.txMask).upDone p l

/-- An attempt has failed: the third one makes the lane FAILED (R308). -/
def State.attemptFailed (s : State) (l : Nat) : State :=
  let p := lanePort l
  let x := s.lane l
  if x.tries < 2 then s.onLane l fun y => { y.unlocked with tries := y.tries + 1, phase := 0 }
  else
    let t := s.onLane l fun y => { y.unlocked with state := .failed, tries := 3, phase := 0 }
    let t := if x.state = .failed then t else t.failPort 0x10 p l 1
    t.trainDone p

/-- An attempt passes: locked, no bit error at any of the three sampling points, and a skew of at most 6 ns (R298, R307,
R308). -/
def attemptPasses (r : Attempt) : Bool :=
  r.locked && r.errMid == 0 && r.errHi == 0 && r.errLo == 0 && r.skew.toNat ≤ 6000

/-- The codes of a re-anchor: EQUALISE sweeps the anchor's CTLE code and 3 on each side (R311). -/
def Lane.reanchored (x : Lane) (c : LaneCodes) : LaneCodes :=
  { c with ctle := BitVec.ofNat 4 (max (x.ctleAnc.toNat - 3) (min (x.ctleAnc.toNat + 3) c.ctle.toNat)) }

/-- A training or re-anchor attempt ends; RETRAINS counts training attempts after start-up (R330). -/
def State.attemptEnd (s : State) (l : Nat) (r : Attempt) (c : LaneCodes) : State :=
  let x := s.lane l
  if !x.trying then s
  else
    let t := if x.state ≠ .out && s.boot.mode ≠ .starting then
        s.onLcnt l fun k => { k with retrains := satInc 16 k.retrains }
      else s
    if attemptPasses r then t.attemptPassed l (if x.state = .out then x.reanchored c else c) else t.attemptFailed l

/-- A FAILED lane begins a further group of three attempts (R308). -/
def State.retryLane (s : State) (l : Nat) : State :=
  if (s.lane l).state = .failed && 3 ≤ (s.lane l).tries then s.onLane l fun x => { x with tries := 0, phase := 0 }
  else s

/-- A port begins to train: every lane it uses, with no lane in service (R308, R348). -/
def State.trainPort (s : State) (p : Nat) : State :=
  let t := s.onLport p fun x =>
    { x.noSession with state := .training,
                       lanes := { x.lanes with lanes := casLanes s.img.active p, txMask := 0, rxMask := 0, nextMask := 0,
                                               lineMask := 0, down := none, idleTx := false, idleRx := false,
                                               waking := false, txq := [] } }
  (portLanes p).foldl (fun t l =>
    if (s.lane l).state = .test || (s.lane l).dup || casLanes s.img.active p ≤ (s.lane l).logical then t
    else t.onLane l fun x => { x.unlocked with state := .detect, phase := 0, tries := 0, upSent := false,
                                               upRcvd := false, deferred := false, reason := none, rxq := [],
                                               rxAhead := 0, ctle := BitVec.ofNat 4 x.cfg.ctleInit }) t

/-- The lanes stay in electrical idle: HALTED, SAFE_MINIMAL, the fatal sequence (R64, R65, R402). -/
def State.lanesHeld (s : State) : Bool := s.boot.mode = .halted || s.boot.mode = .safeMinimal || s.fatal.inSeq

/-- A DOWN port tries again (R348); an excluded device does not (R334). -/
def State.retryPort (s : State) (p : Nat) : State :=
  if (s.lport p).state = .down && !s.cas.excluded && !s.lanesHeld then s.trainPort p else s

/-! ### Adaptation (R310, R311) -/

/-- An unsigned code held within 2 of its anchor. -/
def clampTo (anc v : Nat) : Nat := max (anc - 2) (min (anc + 2) v)

/-- A phase offset held within 2 of its anchor. -/
def clampPh (anc v : BitVec 6) : BitVec 6 := BitVec.ofInt 6 (max (anc.toInt - 2) (min (anc.toInt + 2) v.toInt))

/-- The codes held within 2 of the anchors. -/
def Lane.clamped (x : Lane) (c : LaneCodes) : LaneCodes :=
  { ctle := BitVec.ofNat 4 (clampTo x.ctleAnc.toNat c.ctle.toNat),
    bw := BitVec.ofNat 3 (clampTo x.bwAnc.toNat c.bw.toNat), ph := clampPh x.phAnc c.ph }

/-- Live codes. -/
def Lane.withCodes (x : Lane) (c : LaneCodes) : Lane := { x with ctle := c.ctle, bw := c.bw, ph := c.ph }

/-- Adaptation would move the codes of a lane in service; beyond 2 of an anchor the drift guard clamps them and
the lane is re-anchored, or its re-anchor deferred. -/
def State.drift (s : State) (l : Nat) (c : LaneCodes) : State :=
  let p := lanePort l
  let x := s.lane l
  if x.state ≠ .inService || (s.lport p).lanes.idleRx then s
  else
    let d := x.clamped c
    let t := s.onLane l fun y => y.withCodes d
    if d = c then t
    else
      let t := t.onLcnt l fun k => { k with drift := satInc 16 k.drift }
      if !s.otherIn p l || s.otherOut p l then t.onLane l fun y => { y with deferred := true }
      else t.removeLane p x.logical .drift

/-! ### Electrical idle (R312, R313) -/

/-- The transmitter sends EIOS at the next frame boundary and stops driving. -/
def State.idleEntry (s : State) (p : Nat) : State :=
  if (s.lport p).state = .disabled || (s.lport p).lanes.idleTx then s
  else s.onPLanes p fun x => { x.control .eios with idleTx := true, waking := false }

/-- EIOS received: adaptation freezes, the signal may stop. -/
def State.eiosHeard (s : State) (p : Nat) : State :=
  if (s.lport p).state = .disabled then s
  else
    (portLanes p).foldl (fun t l =>
      if (s.lane l).state = .inService then
        t.onLane l fun x => { x.unlocked with state := .idle }
      else t) (s.onPLanes p fun x => { x with idleRx := true })

/-- The transmitter leaves idle with its burst of 1,024 UI, then repeats ALIGN. -/
def PortLanes.exit (x : PortLanes) : PortLanes :=
  { (x.control (.burst 1024)).control (.align x.txMask x.alignCnt) with
      idleTx := false, waking := true, heard := 0, exitPer := 0 }

/-- Work for a link port: a domain that does not serve it wakes (R377, R386). -/
def State.wakeLink (s : State) (p : Nat) : State := s.need [dLNK p] 3

/-- The transmitter of a port in use leaves idle. -/
def State.idleExit (s : State) (p : Nat) : State :=
  if (s.lport p).state ≠ .disabled && (s.lport p).lanes.idleTx && !s.lanesHeld then
    (s.wakeLink p).onPLanes p PortLanes.exit
  else s

/-- A burst reaches a receiver: a domain in RETAIN wakes, and this end sends its own burst. -/
def State.burst (s : State) (p : Nat) : State :=
  if (s.lport p).state = .disabled || s.domSt (dLNK p) = 3 || s.lanesHeld then s
  else
    let t := s.wakeLink p
    if (t.lport p).lanes.idleTx then t.onPLanes p PortLanes.exit else t

/-- At an exit from idle a deferred re-anchor begins, one lane at a time, with the exchange of R314; where the lane is alone
LANE DOWN goes out on the lane itself before it leaves, and the port is not DOWN for it (R311, R314, R316; DEDUCED,
assumption log entry 73). A lane still in idle is waited for. -/
def State.exitReanchor (s : State) (p : Nat) : State :=
  match (portLanes p).find? fun l => (s.lane l).deferred && (s.lane l).state = .inService with
  | some l =>
    if (s.usedLanes p).any fun q => (s.lane q).anchors then s
    else if !s.otherIn p l && (s.usedLanes p).any fun q => (s.lane q).state = .idle then s
    else s.takeOut p (s.lane l).logical .drift
  | none => s

/-- A lane reaches block lock: after idle it returns to service with its frozen settings; a deferred re-anchor
follows. Training that has locked goes on to EQUALISE (R306, R307, R311, R313). -/
def State.blockLocked (s : State) (l : Nat) : State :=
  let p := lanePort l
  let x := s.lane l
  let t := s.onLane l fun y => { y with cdrLock := true, blockLock := true }
  match x.state with
  | .disabled => s
  | .idle =>
    ((t.onLane l fun y => { y with state := .inService }).onPLanes p fun y => { y with idleRx := false }).exitReanchor p
  | .detect => t.onLane l fun y => { y.startsPhase 2 s.now with state := .training }
  | .training => t.onLane l fun y => y.startsPhase 2 s.now
  | .retraining => t.onLane l fun y => y.startsPhase 2 s.now
  | _ => t

/-- A block that a lane receives: block lock is reached by 64 consecutive valid headers, and lost by the headers
(R306). -/
def State.hearBlock (s : State) (l : Nat) (raw : BitVec 130) : State :=
  let t := s.rxBlock l raw
  if (t.lane l).blockLock then if hdrsLost (t.lane l).hdrs then t.laneLost l else t
  else if hdrsLock (t.lane l).hdrs then t.blockLocked l
  else t

/-- The blocks that a lane receives, in their order. -/
def State.hearBlocks (s : State) (l : Nat) (bs : List (BitVec 130)) : State := bs.foldl (fun t b => t.hearBlock l b) s

/-- LANE_LOSS: block lock is lost by the headers received, CDR lock, or the signal (R306). -/
def State.lossEvent (s : State) (l : Nat) (why : LossWhy) : State :=
  match why with
  | .blocks bs => s.hearBlocks l bs
  | .cdr => s.laneLost l
  | .signal => s.laneLost l

/-- No lane has locked 20 µs after the idle exit. -/
def State.idleExitLost (s : State) (p : Nat) : State :=
  if (s.lport p).lanes.waking && !(s.usedLanes p).any fun l => (s.lane l).state = .inService then
    (s.onPLanes p fun x => { x with waking := false }).portDown p 2 1
  else s

/-! ### APPLY and RETRAIN (R319 to R321, R326) -/

/-- A lane in service, in electrical idle too. -/
def Lane.serves (x : Lane) : Bool := x.state = .inService || x.state = .idle

/-- The lane is the last in service on a port that is UP. -/
def State.lastLane (s : State) (l : Nat) : Bool :=
  (s.lane l).serves && (s.lport (lanePort l)).state = .up &&
    !(s.usedLanes (lanePort l)).any fun q => q ≠ l && (s.lane q).serves

/-- Another lane of the port is out for DRIFT or SETTINGS, or this lane is training. -/
def State.laneBusy (s : State) (l : Nat) : Bool :=
  (s.lane l).coldTraining || (s.lane l).upSent ||
  (s.usedLanes (lanePort l)).any fun q => q ≠ l && (s.lane q).anchors

/-- Whether an APPLY takes the lane out of service, and why. -/
def Lane.applyOut (x : Lane) (c : LaneCfg) : Option OutReason :=
  if !x.serves then none
  else if c.test then some .test
  else if c.swing ≠ x.cfg.swing || c.deemph ≠ x.cfg.deemph then some .settings
  else none

/-- APPLY_RES of an APPLY. -/
def State.applyCode (s : State) (l : Nat) : Nat :=
  let x := s.lane l
  let c := x.staged.getD x.cfg
  if s.boot.mode = .safeMinimal || x.dup then 4
  else if c.prbs && 4 ≤ l then 2
  else if s.laneBusy l then 3
  else if (x.applyOut c).isSome && s.lastLane l then 1
  else 0

/-- A generator that is turned on starts its sequence (R322). -/
def Lane.begins (x : Lane) (l : Nat) (c : LaneCfg) : Lane :=
  if c.genEn && !x.cfg.genEn then
    { x with prbs := (List.range 31).map fun i => i == 0 || (Config.prbsSeed l).getLsbD i }
  else x

/-- A test of this end is over: the lane of a port not in use is DISABLED again, a FAILED one resumes its background
attempts, one that the partner holds stays held, another trains (R320, R321). -/
def Lane.testOver (x : Lane) : Lane :=
  if x.held then x
  else match x.testFrom with
    | .failed => { x with state := .failed, reason := none }
    | .disabled => { x with state := .disabled, reason := none }
    | _ => { x.unlocked with state := .retraining, phase := 0, tries := 0, ctle := BitVec.ofNat 4 x.cfg.ctleInit }

/-- Settings of a lane come into force; a checker that they turn on or off starts anew (R323). -/
def State.applyCfg (s : State) (l : Nat) (c : LaneCfg) : State :=
  let t := s.onLane l fun y => { y.begins l c with cfg := c, staged := none }
  if (s.lane l).cfg.chkEn == c.chkEn then t else t.onLcnt l LaneCnt.chkReset

/-- What follows an APPLY on a lane out of service: a test begins or ends (R321). -/
def State.applyOutside (s : State) (l : Nat) (c : LaneCfg) : State :=
  let x := s.lane l
  let t := s.applyCfg l c
  if c.test then
    if x.state = .test then t
    else t.onLane l fun y => { y with state := .test, reason := some .test, testFrom := x.state }
  else if x.state = .test && x.cfg.test then t.onLane l Lane.testOver
  else t

/-- An accepted APPLY. -/
def State.applyLane (s : State) (l : Nat) : State :=
  let x := s.lane l
  let c := x.staged.getD x.cfg
  match x.applyOut c with
  | some .test =>
    (s.removeLane (lanePort l) x.logical .test).applyCfg l c
  | some r => s.removeLane (lanePort l) x.logical r
  | none => s.applyOutside l c

/-- APPLY_RES of a RETRAIN. -/
def State.retrainCode (s : State) (l : Nat) : Nat :=
  if s.boot.mode = .safeMinimal || (s.lane l).dup then 4
  else if s.laneBusy l then 3
  else if s.lastLane l then 1
  else 0

/-- An accepted RETRAIN. -/
def State.retrainLane (s : State) (l : Nat) : State :=
  let x := s.lane l
  let t := s.onLane l fun y => { y with staged := none }
  match x.state with
  | .inService => t.removeLane (lanePort l) x.logical .lost
  | .idle => t.removeLane (lanePort l) x.logical .lost
  | .failed => t.onLane l fun y => { y with tries := 0, phase := 0 }
  | .out => t.takeOut (lanePort l) x.logical .lost
  | _ => t

/-- APPLY_RES of a write of LNK_APPLY: of APPLY and, where that is accepted, of RETRAIN (R326). -/
def State.applyResult (s : State) (l : Nat) (v : BitVec 64) : Nat :=
  if bit v 0 && s.applyCode l ≠ 0 then s.applyCode l else if bit v 1 then s.retrainCode l else 0

/-- A write of LNK_APPLY: accepted with DONE, or refused with its APPLY_RES and FAULT, and nothing else changed
(R326). -/
def State.applyWrite (s : State) (l : Nat) (v : BitVec 64) : State × Bool :=
  let put (t : State) (c : Nat) : State := t.onLane l fun x => { x with applyRes := c }
  if s.applyResult l v ≠ 0 then (put s (s.applyResult l v), false)
  else
    let t := if bit v 0 then s.applyLane l else s
    let t := if bit v 1 then t.retrainLane l else t
    (if bit v 0 || bit v 1 then put t 0 else t, true)

/-- SEL_LANE discards what is staged (R326). -/
def State.unstage (s : State) : State := s.onLanes fun m => SMap.mapVals {} (fun _ x => { x with staged := none }) m

/-- Stage settings for a lane. -/
def State.stageLane (s : State) (l : Nat) (f : LaneCfg → LaneCfg) : State :=
  s.onLane l fun x => { x with staged := some (f (x.staged.getD x.cfg)) }

/-! ### PRBS (R322 to R324, R329) -/

/-- One error is injected: a bit of the generator's next ones is inverted (R324). -/
def State.injectBit (s : State) (l : Nat) : State :=
  let c := (s.lane l).cfg
  if 4 ≤ l || !c.genEn || (c.injMode ≠ 1 && c.injMode ≠ 2) then s
  else (s.onLane l fun y => { y with flips := y.flips + 1 }).onLcnt l fun k => { k with injected := k.injected + 1 }

/-- One periodic injection. -/
def State.injectPeriodic (s : State) (l : Nat) : State :=
  if (s.lane l).cfg.injMode = 2 then s.injectBit l else s

/-- The raw bits that come in on the pad of a lane: the checker takes them, and a far-end loopback sends them back; a
near-end loopback ignores the pad (R300, R319, R320, R323). -/
def State.prbsBits (s : State) (l : Nat) (bits : List Bool) : State :=
  let x := s.lane l
  if x.near then s
  else
    let raw := bits.map fun b => xor b x.rxInv
    let t := if x.cfg.loop = 3 then s.onLane l fun y => y.sendBits raw else s
    if l < 4 && x.cfg.chkEn then
      t.onLcnt l fun k =>
        let c := k.checkAll x.cfg.poly x.cfg.inv raw
        { c with ahead := c.ahead + raw.length }
    else t

/-- A read of LNK_PRBS_ST. -/
def State.prbsRead (s : State) (l : Nat) : State × BitVec 64 :=
  if 4 ≤ l then (s, 0)
  else
    let k := s.lcnt l
    (s.onLcnt l fun c => { c with bitsRead := k.bits, bits := 0, errors := 0 },
     pack [(63, 1, b2n k.sync), (0, 32, k.errors)])

/-! ### Meanings -/

/-- ALIGN_PERIOD (R305). -/
def execAlignPeriod (p : BitVec 2) (s : State) : Host.Outcome State Fault Refusal := .next (s.alignSent p.toNat)

/-- ALIGN (R297). -/
def execAlign (p : BitVec 2) (mask : BitVec 4) (b : AlignBlk) (s : State) : Host.Outcome State Fault Refusal :=
  .next (s.alignHeard p.toNat mask b.heard b.count)

/-- DOWN_ACK (R314). -/
def execDownAck (p : BitVec 2) (mask : BitVec 4) (s : State) : Host.Outcome State Fault Refusal :=
  .next (s.downAcked p.toNat mask)

/-- LANE_DOWN_REPEAT (R315). -/
def execLaneDownRepeat (p : BitVec 2) (s : State) : Host.Outcome State Fault Refusal := .next (s.downAgain p.toNat)

/-- UP (R318). -/
def execUp (p k : BitVec 2) (s : State) : Host.Outcome State Fault Refusal := .next (s.upHeard p.toNat k.toNat)

/-- ELECTRICAL_IDLE_ENTRY (R312). -/
def execElectricalIdleEntry (p : BitVec 2) (s : State) : Host.Outcome State Fault Refusal :=
  .next (s.idleEntry p.toNat)

/-- EIOS (R312). -/
def execEios (p : BitVec 2) (s : State) : Host.Outcome State Fault Refusal := .next (s.eiosHeard p.toNat)

/-- ELECTRICAL_IDLE_EXIT (R313). -/
def execElectricalIdleExit (p : BitVec 2) (s : State) : Host.Outcome State Fault Refusal :=
  .next (s.idleExit p.toNat)

/-- SQUELCH_BURST (R313). -/
def execSquelchBurst (p : BitVec 2) (s : State) : Host.Outcome State Fault Refusal := .next (s.burst p.toNat)

/-- PRBS_PERIODIC_INJECT (R324). -/
def execPrbsPeriodicInject (l : BitVec 4) (s : State) : Host.Outcome State Fault Refusal :=
  .next (s.injectPeriodic l.toNat)

/-- BLOCK_LOCK (R306). -/
def execBlockLock (b : LaneBlocks) (s : State) : Host.Outcome State Fault Refusal :=
  .next (s.hearBlocks b.lane.toNat b.blocks)

/-- PRBS_SYNC (R323). -/
def execPrbsSync (b : LaneBits) (s : State) : Host.Outcome State Fault Refusal :=
  .next (s.prbsBits b.lane.toNat b.bits)

/-- PRBS_SYNC_LOSS (R323). -/
def execPrbsSyncLoss (b : LaneBits) (s : State) : Host.Outcome State Fault Refusal :=
  .next (s.prbsBits b.lane.toNat b.bits)

end Sys2Proof.Machine
end

