-- ==== Sys2Proof/Machine/Wired.lean ====
section
/-!
DEFINITION. Wired lines: capture, the capture latches, and the asynchronous latches of DORMANT (R38 to R40,
R115 to R120, R253, R255, R362, R388, R437).
-/

namespace Sys2Proof.Machine

/-- A source with a wired pin (R38). -/
def isPin (n : Nat) : Bool := n < 14 || isWire n

/-- A level on the pin as the line sees it: polarity applies to an ordinary line (R116, R118). -/
def State.asserted (s : State) (n : Nat) (pin : Bool) : Bool :=
  if isWire n then pin != wiredLow (wiredRec s.img.active n) else pin

/-- A line is captured from READY on: a sovereign one always, an ordinary one in use while its EN is 1 (R68, R117,
R118). -/
def State.captured (s : State) (n : Nat) : Bool :=
  (s.boot.mode = .ready || s.boot.mode = .safeMinimal) &&
    if isWire n then wiredInUse (wiredRec s.img.active n) && (s.entry n).en else n < 14

/-- A filtered transition reaches the capture latch: a second edge is merged, a level line keeps its latest
level and stamp (R116, R119). -/
def State.reportLine (s : State) (n : Nat) (stamp : Tick) (level : Bool) : State :=
  let t := s.onLine n fun x => { x with level := level }
  if (s.entry n).trig then
    t.onLatch n fun _ => { valid := true, stamp := stamp, kind := if level then .assert else .deassert }
  else if !level then t
  else if (s.latch n).valid then t.onLine n fun x => { x with merged := satInc 32 x.merged }
  else t.onLatch n fun _ => { valid := true, stamp := stamp, kind := .fire }

/-- A filtered transition of a captured line, with the alarm of SOV_IN (R362); the confluence wakes for it. -/
def State.reportWired (s : State) (n : Nat) (stamp : Tick) (level : Bool) : State :=
  let t := if n < 12 && level then s.alarmOriginate stamp n else s
  let t := (t.reportLine n stamp level).touch [dCFL]
  if t.avail dCFL then t else t.wakeFor [dCFL] 1

/-- The always-on count of DORMANT: the value at entry and 40 ticks for each REFCLK cycle since (R253); one kept on
AOCLK lies within the interval of R255, where in it is a free value (assumption log entry 1). -/
def State.dormantStamp (s : State) (refclk : Bool) : Tick :=
  let raw := Config.stampLag s.free
  let e := s.pwr.entryCnt.toNat
  if refclk then BitVec.ofNat 64 (e + (s.now.toNat - e) / 40 * 40)
  else
    let e := (s.now.toNat - s.pwr.entryCnt.toNat) / 50
    let r := s.tb.aoRatio / 1024
    BitVec.ofNat 64 (s.now.toNat + e - raw % (r + 2 * e + 1))

/-- Whether the always-on domain counted on AOCLK in DORMANT; a wake that no watched input has told about takes a free
value (assumption log entry 1). -/
def State.sleptOnAoclk (s : State) : Bool := s.pwr.aoCount.getD (Config.refclkStopped s.free)

/-- The watched line of a latch: set by an active edge or an asserted level (R388). -/
def State.latchAsync (s : State) (n : Nat) (pin : Bool) (refclk : Bool) : State :=
  let t := s.onLine n fun x => { x with pin := pin }
  if !s.asserted n pin || !s.captured n || (!(s.entry n).trig && s.asserted n (s.line n).pin) ||
      s.pwr.asyncs.any fun a => a.1 == n then t
  else (t.onPwr fun p => { p with asyncs := p.asyncs ++ [(n, true, s.dormantStamp refclk)] }).drawn

/-- An asynchronous latch that is set wakes the confluence (R386, R388). -/
def State.asyncEvent (s : State) (n : Nat) (pin : Bool) (refclk : Bool) : State :=
  let t := s.latchAsync n pin refclk
  if t.pwr.asyncs.any fun a => a.1 == n then t.startWake dCFL else t

/-- A filtered level change of a pin. While TB is DORMANT only the asynchronous latches watch (R388); after a
FATAL reaction a capture is discarded and counted (R437). -/
def State.capture (s : State) (n : Nat) (pin : Bool) : State :=
  if !isPin n then s
  else
    let t := s.onLine n fun x => { x with pin := pin }
    let lvl := s.asserted n pin
    if s.domSt dTB = 3 && !s.fatal.inSeq then
      let k := s.sleptOnAoclk
      (s.onPwr fun p => { p with aoCount := some k }).asyncEvent n pin !k
    else if !s.captured n || (s.line n).level = lvl then t
    else if s.fatal.inSeq then t.late
    else t.reportWired n (s.now - 3) lvl

/-- Domains that the event of a watched input needs (R377, R388). -/
def wakeDomains : WakeInput → List Nat
  | .wired .. => [dCFL]
  | .upstream n => [dDLV n.toNat]
  | .portReset n => [dDLV n.toNat]
  | .keyPort => [dSTW]
  | .register => [dTB]
  | .doorbell => [dCFL]

/-- A watched input sets its latch and wakes the block while TB, with which the watch ends, is DORMANT (R388); `refclk`
says whether REFCLK kept running (R253). -/
def State.dormantWake (s : State) (w : WakeInput) (refclk : Bool) : State :=
  if s.domSt dTB ≠ 3 then s
  else
    let t := s.onPwr fun p => { p with aoCount := some (p.aoCount.getD false || !refclk) }
    match w with
    | .wired line level =>
      if isPin line.toNat then t.asyncEvent line.toNat level refclk else s
    | _ => (wakeDomains w).foldl State.startWake t

/-- Insert an asynchronous latch in stamp order. -/
def insertAsync (x : Nat × Bool × Tick) : List (Nat × Bool × Tick) → List (Nat × Bool × Tick)
  | [] => [x]
  | y :: l => if y.2.2 ≤ x.2.2 then y :: insertAsync x l else x :: y :: l

/-- At wake the latched events reach their capture latches in stamp order, and the level of every captured
level line is sampled afresh (R388); an edge line takes the level that it has now as its reference (R116). -/
def State.passAsyncs (s : State) : State :=
  let order := s.pwr.asyncs.foldl (fun acc x => insertAsync x acc) []
  let t := s.onPwr fun p => { p with asyncs := [] }
  let t := order.foldl (fun t a => t.reportWired a.1 a.2.2 a.2.1) t
  t.cfl.lines.foldl (fun u q =>
    let lvl := u.asserted q.1 q.2.pin
    if !u.captured q.1 || q.2.level = lvl then u
    else if (u.entry q.1).trig then u.reportWired q.1 s.now lvl
    else u.onLine q.1 fun x => { x with level := lvl }) t

/-- WIRED_CAPTURE (R115). -/
def execWiredCapture (line : BitVec 10) (level : Bool) (s : State) : Host.Outcome State Fault Refusal :=
  .next (s.capture line.toNat level)

/-- DORMANT_WAKE_LATCH (R388). -/
def execDormantWakeLatch (w : WakeInput) (refclk : Bool) (s : State) : Host.Outcome State Fault Refusal :=
  .next (s.dormantWake w refclk)

end Sys2Proof.Machine
end

