-- ==== Sys2Proof/Machine/Power.lean ====
section
/-!
DEFINITION. Performance levels, ageing, sleep requests, commits, rollbacks and wakes (R372 to R395).
-/

namespace Sys2Proof.Machine

/-! ### Levels (R372 to R374) -/

/-- The ageing record of a level. -/
def State.lvl (s : State) (l : Nat) : Lvl := SMap.get {} s.lev.lvls l

def State.onLvl (s : State) (l : Nat) (f : Lvl → Lvl) : State :=
  s.onLev fun x => { x with lvls := SMap.upd {} x.lvls l f }

/-- Operating code of a level. -/
def State.code (s : State) (l : Nat) : Nat := (s.lvl l).code

/-- No operation of the sequencer is under way or queued as a wake, and VGOOD is 1 (R43, R374). -/
def State.seqFree (s : State) : Bool :=
  s.lev.op = .idle && (s.pwr.phase = 0 || s.pwr.phase = 4) && s.pwr.waking = 0 && s.pwr.wakeQ = 0 && !s.pwr.restore &&
    s.lev.vgood

/-- Drive VREQ; the voltage is reached once VGOOD has been 0 and 1 again (R43). -/
def State.drive (s : State) (code : Nat) (op : SeqOp) : State :=
  s.onLev fun x => { x with vreq := code, vgood := false, op := op }

/-- A change of level is refused with a LASTRES code (R374). -/
def State.levelRefused (s : State) (t code : Nat) : State :=
  let u := s.onLev fun x => { x with lastres := code }
  let u := if code = 2 then u.onPwr fun p => { p with heldCnt := satInc 16 p.heldCnt } else u
  u.powerEvent true t 2 code

/-- The code a request for a level is refused with, 0 for none. -/
def State.levelCode (s : State) (t : Nat) (world : Bool) : Nat :=
  if t < s.lev.floor && !world then 2
  else if (s.lvl t).retired then 3
  else if s.boot.mode = .safeMinimal then 4
  else 0

/-- Begin a change: a raise writes VREQ first, a lower the divider (R373). -/
def State.startLevel (s : State) (t : Nat) : State :=
  if t = s.lev.cur then s.onLev fun x => { x with lastres := 0 }
  else if s.lev.cur < t then (s.drive (s.code t) (.raise t)).onLev fun x => { x with tgt := t }
  else (s.drive (s.code t) (.lower t)).onLev fun x => { x with cur := t, tgt := t }

/-- A change has finished. -/
def State.levelDone (s : State) (t : Nat) : State :=
  (s.onLev fun x => { x with cur := t, tgt := t, op := .idle, lastres := 0, lvlChg := satInc 16 x.lvlChg }).onBoot
    fun b => { b with plHeld := b.plHeld && t == 0 }

/-! ### Ageing (R390 to R394) -/

def pRaise : Nat := 26
def pRetire : Nat := 13
def sRaise : Nat := 70
def sRetire : Nat := 45

/-- The retire test. -/
def marginsBad (m : Margins) : Bool := m.p.toNat < pRetire || m.s.toNat < sRetire

/-- The raise test. -/
def marginsLow (m : Margins) : Bool := m.p.toNat < pRaise || m.s.toNat < sRaise

/-- The margins of a reading or check at a level (R395). -/
def State.noteMargins (s : State) (l : Nat) (m : Margins) : State :=
  s.onLvl l fun x => { x with pmargin := m.p.toNat, smargin := m.s.toNat }

/-- One step: the code rises by one, self-source 1,006 (R391). -/
def State.stepUp (s : State) (l : Nat) (op : SeqOp) : State :=
  let c := s.code l + 1
  let t := s.onLvl l fun x => { x with code := c, raise1 := x.raise2, raise2 := some s.lev.reads.toNat }
  (t.drive c op).note 0x25 1006 none 5 (128 + l) (1 * 4096 + c % 256)

/-- The highest level below `l` that is not retired; PL0 never is (R393). -/
def State.lowerLevel (s : State) (l : Nat) : Nat :=
  ((List.range l).reverse.find? fun k => !(s.lvl k).retired).getD 0

/-- Retire a level; a running one is left for the next lower one. PL0 is never retired: AT_CEIL, LIFE 0 and the
margin class (R393). -/
def State.retireLvl (s : State) (l : Nat) (m : Margins) : State :=
  if l = 0 then
    (s.onLvl 0 fun x => { x with atCeil := true, dead := true }).fail 0x14 none 5 128
      (m.p.toNat * 256 + m.s.toNat)
  else
    let t := (s.onLvl l fun x => { x with retired := true }).note 0x25 1006 none 5 (128 + l)
      (2 * 4096 + s.code l % 256)
    if t.lev.cur = l then t.startLevel (t.lowerLevel l) else t

/-- One reading of the loop of R391 at the running level. -/
def State.ageLoop (s : State) (l : Nat) (m : Margins) : State :=
  let t := s.noteMargins l m
  let x := t.lvl l
  if marginsBad m then
    if x.ceil ≤ x.code then t.retireLvl l m else t.stepUp l (.ageStep l)
  else if marginsLow m then
    if x.code < x.ceil then t.stepUp l (.ageLast l) else t.onLvl l fun y => { y with atCeil := true }
  else t

/-- Levels whose operating code lies above a ceiling that an image has lowered are retired (R393). -/
def State.retireOver (s : State) (m : Margins) : State :=
  [1, 2, 3].foldl (fun t l => if (t.lvl l).lowCeil && !(t.lvl l).retired then t.retireLvl l m else t) s

/-- The re-plan of a reading taken at a level: nothing when the block has left that level meanwhile. -/
def State.agePlan (s : State) (l : Nat) (m : Margins) : State :=
  let t := s.retireOver m
  if t.lev.cur = l && t.lev.op = .idle then t.ageLoop l m else t

/-- A reading that waited for the sequencer (R391). -/
def State.ageNext (s : State) : State :=
  match s.lev.ageHeld with
  | some (l, m) => if s.seqFree then (s.onLev fun x => { x with ageHeld := none }).agePlan l m else s
  | none => s

/-- The queued level (R374). -/
def State.levelNext (s : State) : State :=
  match s.lev.pend with
  | some (t, w) =>
    if s.seqFree then
      let u := s.onLev fun x => { x with pend := none }
      let c := u.levelCode t w
      if c ≠ 0 then u.levelRefused t c else u.startLevel t
    else s
  | none => s

/-- Domains of a mask, ascending. -/
def domsOf (m : BitVec 28) : List Nat := (List.range 28).filter fun d => bit m d

/-- Queued wakes begin, all together (R374). -/
def State.wakeNext (s : State) : State :=
  if s.wakeFree then
    (domsOf s.pwr.wakeQ).foldl State.startWake (s.onPwr fun p => { p with wakeQ := 0 })
  else s

/-- The level held at entry to DORMANT is restored without a margin check: VREQ goes to its code, and the level runs once
VGOOD has been 0 and 1 again (R43, R383, R387). An ageing loop in its pause ends: the block leaves its level (R391). -/
def State.restoreNext (s : State) : State :=
  let l := s.pwr.entryLvl
  let free := match s.lev.op with
    | .idle => true
    | .ageWait _ => true
    | _ => false
  if !s.pwr.restore || !free || !s.lev.vgood then s
  else
    let t := s.onPwr fun p => { p with restore := false }
    if s.lev.cur = l then t.onLev fun x => { x with tgt := l }
    else (t.drive (s.code l) (.wakeLevel l)).onLev fun x => { x with tgt := l }

/-- What the sequencer does next, once it is free: the level that a wake restores, queued wakes, a reading, the queued
level, then a sleep request that waits behind them (R374, R385, R387, R391). -/
def State.seqNext (s : State) : State :=
  let t := s.restoreNext.wakeNext.ageNext.levelNext
  if t.seqFree && t.pwr.phase = 4 then t.onPwr fun p => { p with phase := 1 } else t

/-- The steward's ageing service rests: in the fatal sequence, and while the steward is halted by its watchdog or by
STW_HALT (R390, R391, R400, R402, R409). -/
def State.ageRests (s : State) : Bool := s.fatal.inSeq || s.saf.stwHalted || s.saf.stwStop

/-- A reading of the monitors falls due (R390, R391): the block is ACTIVE and the steward awake. -/
def State.ageReading (s : State) (m : Margins) : State :=
  if s.blockState ≠ 0 || s.ageRests then s
  else
    let l := s.lev.cur
    let t := s.onLev fun x =>
      { x with reads := x.reads + 1, agePm := m.p.toNat, ageSm := m.s.toNat, pworst := m.pworst,
               sworst := m.sworst, ageLevel := l, ageHeld := some (l, m) }
    let t := (t.noteMargins l m).touch [dSTW]
    if t.avail dSTW then t.seqNext else t.wakeFor [dSTW] 5

/-- 100 µs after an unsafe step the monitors are read again; the loop waits for a wake that runs (R374, R391). -/
def State.ageAgain (s : State) (m : Margins) : State :=
  match s.lev.op with
  | .ageWait l =>
    if s.ageRests then s
    else
      let t := s.onLev fun x => { x with op := .idle }
      if t.seqFree then (t.ageLoop l m).seqNext else t.onLev fun x => { x with ageHeld := some (l, m) }
  | _ => s

/-- LIFE of a level in days (R394); a reading is 10 s of ACTIVE time. -/
def State.life (s : State) (l : Nat) : Nat :=
  let x := s.lvl l
  if x.retired || x.dead then 0
  else
    match x.raise1, x.raise2 with
    | some a, some b => min 0xFFFE ((x.ceil - x.code) * ((b - a) * 10) / 86400)
    | _, _ => 0xFFFF

/-- The ceilings an image gives; a code above one is noted for the next reading (R85, R393, R395). -/
def State.ceilings (s : State) (b : ImageBody) : State :=
  (List.range 4).foldl (fun t l => t.onLvl l fun x =>
    { x with ceil := bootVceil b l, lowCeil := bootVceil b l < x.code }) s

/-! ### VGOOD (R43, R373, R392) -/

/-- The margin check of a raise, with the readings it takes: the target runs the loop of R391; steps wait for
VGOOD in turn. A retired target ends the change. -/
def State.raiseCheck (s : State) (t : Nat) : List Margins → State
  | [] => s
  | m :: rest =>
    let u := (s.onLev fun y => { y with vgood := true }).noteMargins t m
    let x := u.lvl t
    if marginsBad m then
      if x.ceil ≤ x.code && t ≠ 0 then
        ((u.retireLvl t m).drive (u.code u.lev.cur) .settle).onLev fun y =>
          { y with tgt := y.cur, lastres := 3 }
      else if x.ceil ≤ x.code then (u.retireLvl t m).levelDone t
      else State.raiseCheck (u.stepUp t (.raise t)) t rest
    else if marginsLow m then
      if x.code < x.ceil then u.stepUp t (.raiseEnd t)
      else (u.onLvl t fun y => { y with atCeil := true }).levelDone t
    else u.levelDone t

/-- VGOOD has been 0 and is 1 again, with the readings that the check it belongs to takes. -/
def State.voltageReached (s : State) (ms : List Margins) : State :=
  let v := s.onLev fun x => { x with vgood := true }
  match s.lev.op with
  | .raise t => (v.raiseCheck t ms).seqNext
  | .raiseEnd t => (v.levelDone t).seqNext
  | .lower t => (v.levelDone t).seqNext
  | .settle => (v.onLev fun x => { x with op := .idle }).seqNext
  | .ageStep l => v.onLev fun x => { x with op := .ageWait l }
  | .ageLast _ => (v.onLev fun x => { x with op := .idle }).seqNext
  | .sleepLevel => v.onLev fun x => { x with op := .idle, lvlChg := satInc 16 x.lvlChg }
  | .wakeLevel l => (v.onLev fun x => { x with op := .idle, cur := l, tgt := l, lvlChg := satInc 16 x.lvlChg }).seqNext
  | _ => v.seqNext

/-- VGOOD has not returned within 200 µs: the lower frequency stays, VREQ is held, self-source 1,005; wakes go on. -/
def State.voltageLost (s : State) : State :=
  if s.lev.vgood || s.lev.op = .idle then s
  else
    let t := s.onLev fun x => { x with op := .idle, tgt := x.cur, lastres := 5 }
    (t.powerEvent true s.lev.tgt 1 5).seqNext

/-! ### Level requests (R374, R375) -/

/-- A write of PWR_PL_CTL. While every domain is DORMANT the request replaces the level restored at wake
(R387). -/
def State.levelWrite (s : State) (t : Nat) (world : Bool) : State :=
  let c := s.levelCode t world
  if c ≠ 0 then s.levelRefused t c
  else if s.blockState = 3 then
    (s.onPwr fun p => { p with entryLvl := s.lev.cur }).onLev fun x => { x with pend := some (t, world), lastres := 1 }
  else if s.seqFree then (s.onPwr fun p => { p with lowered := false }).startLevel t
  else (s.onPwr fun p => { p with lowered := false }).onLev fun x => { x with pend := some (t, world), lastres := 1 }

/-- A secure write of PWR_PL_FLOOR. -/
def State.floorWrite (s : State) (f : Nat) : State :=
  let t := s.onLev fun x => { x with floor := f }
  if s.lev.cur < f then t.levelWrite f true else t

/-! ### Idle domains (R377) -/

/-- A pass would do something. -/
def State.passWork (s : State) : Bool :=
  let t := s.pass
  s.weirRuns && (t.ctxs != s.ctxs || t.ports != s.ports || t.cas != s.cas || t.pwr != s.pwr)

/-- A domain is idle for the prepare phase. -/
def State.domIdle (s : State) (d : Nat) : Bool :=
  if d = dSTW then
    s.img.stage ≠ .fetching && s.img.stage ≠ .verifying && !s.mbx.busy && s.keys.commit.isNone &&
      s.keys.waiting.isEmpty && !s.fatal.inSeq
  else if d = dCFL then
    s.entries.isEmpty && s.cfl.res.isEmpty && s.readyLatches.isEmpty && s.cfl.dbWait.isEmpty
  else if d < 6 then
    !s.stripes.ssa.rebuildRuns && !s.stripes.pla.rebuildRuns && s.cfl.res.all fun f => dARR f.src ≠ d
  else if d = dWEIR then s.weir.mode ≠ .selftest && !s.weir.linkRebuild && !s.passWork
  else if d < 23 then
    (portCtxs (d - 7)).all (fun c => (s.ctx c).pres.isNone) && (s.port (d - 7)).down.isEmpty &&
      (s.port (d - 7)).upq.isEmpty
  else if d < 27 then
    let x := s.lport (d - 23)
    x.state = .disabled || x.state = .down ||
      (x.replayBuf.isEmpty && x.relayq.isEmpty && x.lanes.idleTx && x.lanes.idleRx)
  else true

/-! ### Sleep requests (R378 to R382) -/

/-- A sleep request ends with a RESULT code and the domain that decided it; a refusal or a rollback raises
self-source 1,005. -/
def State.sleepResult (s : State) (code first : Nat) : State :=
  let t := s.onPwr fun p => { p with result := code, first := first }
  let t := if code = 1 then t.onPwr fun p => { p with heldCnt := satInc 16 p.heldCnt } else t
  if code = 0 then t else t.powerEvent false first (if code = 6 then 4 else 3) code

/-- A request under way ends in the prepare phase. -/
def State.sleepEnd (s : State) (code first : Nat) : State :=
  ((s.onPwr fun p => { p with phase := 0, named := 0, votes := 0, targets := [] }).sleepResult code first).seqNext

/-- Deepest state code of a domain as a state (R376). -/
def State.deepestSt (s : State) (d : Nat) : Nat := min 3 (SMap.get 0 s.pwr.deepest d + 1)

/-- The state a named domain is asked to enter. -/
def State.sleepTarget (s : State) (target : Nat) (clamp : Bool) (d : Nat) : Nat :=
  if clamp then min target (s.deepestSt d) else target

/-- A port that DORMANT would cut off (R380). -/
def State.linkUp (s : State) (d : Nat) : Bool :=
  23 ≤ d && d < 27 && (match (s.lport (d - 23)).state with
    | .disabled => false
    | .down => false
    | _ => true)

/-- Checks 1 to 5 of R380: the code and the domain, if one fails. -/
def State.sleepCheck (s : State) (world : Bool) (ds : List Nat) (target : Nat) (clamp : Bool) :
    Option (Nat × Nat) :=
  if s.pwr.phase ≠ 0 then some (4, 31)
  else if target = 0 then none
  else
    match ds.find? fun d => !world && bit s.pwr.owner d with
    | some d => some (2, d)
    | none =>
      match ds.find? fun d => !world && bit s.pwr.hold d with
      | some d => some (1, d)
      | none =>
        match ds.find? fun d => !clamp && s.deepestSt d < target with
        | some d => some (3, d)
        | none => (ds.find? fun d => target = 3 && s.linkUp d).map fun d => (7, d)

/-- The named domains that are to enter another state, and that state: TB only with every other domain to DORMANT (R378,
R380). -/
def State.sleepPlan (s : State) (ds : List Nat) (target : Nat) (clamp : Bool) : List (Nat × Nat) :=
  let all := ds.length = 28 && target = 3 && (List.range 28).all fun d => s.sleepTarget 3 clamp d = 3
  (ds.filter fun d => (d ≠ dTB || all) && s.domSt d ≠ s.sleepTarget target clamp d).map
    fun d => (d, s.sleepTarget target clamp d)

/-- Every named domain holds a vote: the commit begins with the eddy latch armed, after the lower to PL0 that
DORMANT asks for; a level that an earlier commit has lowered stays the one to restore. From here on a named Weir makes no
visit (R194, R382, R383). -/
def State.commitBegin (s : State) : State :=
  let t := s.onPwr fun p =>
    { p with phase := 2, toStop := (domsOf p.named).reverse.filter (· ≠ dTB) ++
                 (if bit p.named dTB then [dTB] else []),
             stopped := [], eddy := { armed := true }, latched := [], wasLow := p.lowered,
             entryLvl := if p.lowered then p.entryLvl else s.lev.cur,
             lowered := p.lowered || p.targets.any fun q => q.2 = 3 }
  let t := if bit s.pwr.named dWEIR then t.onWeir fun w => w.pause s.now else t
  if (s.pwr.targets.any fun q => q.2 = 3) && s.lev.cur ≠ 0 then
    (t.drive (t.code 0) .sleepLevel).onLev fun x => { x with cur := 0, tgt := 0 }
  else t

/-- A domain leaves service: WEIR notes when (R194), and the always-on domain counts on for TB from there (R253). -/
def State.entered (s : State) (d v : Nat) : State :=
  let t := s.onPwr fun p => { p.setDom d v with entryCnt := if d = dTB then s.now else p.entryCnt }
  if d = dWEIR then t.onWeir fun w => w.pause s.now else t

/-- Raise PWR_REQ of every stopped domain for a rollback (R384). -/
def State.rollbackBegin (s : State) : State :=
  s.pwr.stopped.foldl State.raiseReq (s.onPwr fun p => { p with phase := 3, toStop := [] })

/-- The next stop begins: outputs clamped, retention entered, PWR_REQ lowered (R44, R383); DOZE only gates, and
the domain returns to it after work (R381). -/
def State.stopBegin (s : State) (d : Nat) : State :=
  let v := SMap.get 0 s.pwr.targets d
  if v = 1 then
    (s.entered d 1).onPwr fun p =>
      { p with toStop := p.toStop.drop 1, stopped := p.stopped ++ [d], doze := maskSet p.doze d true }
  else
    s.onPwr fun p =>
      { p with retEn := maskSet p.retEn d true, isoEn := maskSet p.isoEn d true,
               deepRet := if 2 ≤ d && d < 6 && v = 3 then p.deepRet ||| BitVec.ofNat 4 (2 ^ (d - 2))
                          else p.deepRet }.setReq d false

/-- The commit goes on: before each stop the eddy latch is read (R384). -/
def State.commitStep (s : State) : Nat → State
  | 0 => s
  | k + 1 =>
    if s.pwr.phase ≠ 2 || s.lev.op = .sleepLevel then s
    else if s.pwr.eddy.count ≠ 0 then s.rollbackBegin
    else
      match s.pwr.toStop with
      | [] => (s.onPwr fun p => { p with phase := 0, named := 0, votes := 0, targets := [] }).sleepResult 0 31 |>.seqNext
      | d :: _ =>
        let t := s.stopBegin d
        if t.pwr.toStop.head? = some d then t else t.commitStep k

/-- An accepted two-phase request (R382), behind an operation that runs. A domain that is deeper than its target wakes
first (R380). -/
def State.prepare (s : State) (world : Bool) (plan : List (Nat × Nat)) : State :=
  let t := plan.foldl (fun t q => if q.2 < t.domSt q.1 then t.startWake q.1 else t) s
  let busy := !t.seqFree
  t.onPwr fun p =>
    { p with phase := if busy then 4 else 1, reqWorld := world, votes := 0, first := 31,
             named := plan.foldl (fun m q => maskSet m q.1 true) 0,
             targets := plan.foldl (fun m q => SMap.set 0 m q.1 q.2) [] }

/-- Wake a domain for a request or a hold: DOZE ends, a deeper state is woken (R379, R380). -/
def State.wakeDom (s : State) (d : Nat) : State :=
  if s.domSt d = 1 then s.endDoze d else s.startWake d

/-- TARGET = ON. -/
def State.sleepOn (s : State) (ds : List Nat) : State :=
  let t := ds.foldl State.wakeDom s
  (t.onPwr fun p => { p with doze := ds.foldl (fun m d => maskSet m d false) p.doze }).sleepResult 0 31

/-- A request whose domains all go to DOZE: each gates as soon as it is idle, one that is deeper once it has woken
(R380, R381). -/
def State.sleepDoze (s : State) (ds : List Nat) (plan : List (Nat × Nat)) : State :=
  let t := s.onPwr fun p => { p with doze := (ds.filter (· ≠ dTB)).foldl (fun m d => maskSet m d true) p.doze }
  (plan.foldl (fun t q =>
    if 1 < t.domSt q.1 then t.startWake q.1 else if t.domIdle q.1 then t.gate q.1 else t) t).sleepResult 0 31

/-- A write of PWR_SLEEP_CTL (R380). -/
def State.sleepWrite (s : State) (world : Bool) (v : BitVec 64) : State :=
  let ds := (List.range 28).filter fun d => bit v d
  let target := fld v 32 2
  let clamp := bit v 34
  if ds.isEmpty then s
  else
    let t := s.onPwr fun p => { p with world := world }
    match s.sleepCheck world ds target clamp with
    | some (c, d) => t.sleepResult c d
    | none =>
      if target = 0 then t.sleepOn ds
      else
        let plan := s.sleepPlan ds target clamp
        if ds.all fun d => d = dTB || s.sleepTarget target clamp d = 1 then t.sleepDoze ds plan
        else if plan.isEmpty then t.sleepResult 0 31
        else
          (t.onPwr fun p =>
            { p with doze := ds.foldl (fun m d =>
                maskSet m d (d ≠ dTB && s.sleepTarget target clamp d = 1 && s.domSt d = 1)) p.doze }).prepare world plan

/-- A named domain that is idle votes; a hold set meanwhile ends a normal-world request (R382). -/
def State.vote (s : State) (d : Nat) : State :=
  if s.pwr.phase ≠ 1 || !bit s.pwr.named d || !s.domIdle d then s
  else if !s.pwr.reqWorld && bit s.pwr.hold d then s.sleepEnd 1 d
  else
    let t := s.onPwr fun p => { p with votes := maskSet p.votes d true }
    if t.pwr.votes = t.pwr.named then t.commitBegin.commitStep 30 else t

/-- 10 µs have passed without every vote (R382). -/
def State.prepareEnds (s : State) : State :=
  if s.pwr.phase = 1 then
    s.sleepEnd 5 (((domsOf s.pwr.named).find? fun d => !bit s.pwr.votes d).getD 31)
  else s

/-- A DOZE domain woken by work gates again after 64 idle cycles (R381). -/
def State.regate (s : State) (d : Nat) : State :=
  if d ≠ dTB && bit s.pwr.doze d && s.domSt d = 0 && s.domIdle d then s.gate d else s

/-! ### PWR_ACK: stops, rollbacks and wakes (R44, R384, R386, R387) -/

/-- A domain is powered again: isolation and retention released, clocks running. Lanes that
were off train again, frames that waited are sent (R312, R376, R377). -/
def State.domUp (s : State) (d : Nat) : State :=
  let was := s.domSt d
  let t := s.onPwr fun p =>
    { p.setDom d 0 with retEn := maskSet p.retEn d false, isoEn := maskSet p.isoEn d false,
                        waking := maskSet p.waking d false, wakeQ := maskSet p.wakeQ d false,
                        failing := maskSet p.failing d false,
                        deepRet := if 2 ≤ d && d < 6 then p.deepRet &&& ~~~ BitVec.ofNat 4 (2 ^ (d - 2))
                                   else p.deepRet }
  if 23 ≤ d && d < 27 then
    if was = 3 then
      (t.usedLanes (d - 23)).foldl (fun u l => u.onLane l fun x => { x.unlocked with state := .detect, phase := 0, tries := 0 }) t
    else t.drainPort (d - 23)
  else t

/-- The count at a wake from DORMANT: its value at entry and the elapsed cycles; one kept on AOCLK errs and leaves the
timebase unaligned (R253). -/
def State.restoreCount (s : State) : State :=
  let t := ((s.onTb fun b => { b with count := s.dormantStamp !s.sleptOnAoclk }).onPwr fun p =>
    { p with aoCount := none }).drawn
  if s.sleptOnAoclk then t.unaligned else t

/-- TB is back: the count, and what the asynchronous latches hold (R253, R388). -/
def State.tbUp (s : State) : State := s.restoreCount.passAsyncs

/-- Domains are powered again, TB with the count first. -/
def State.domsUp (s : State) (ds : List Nat) : State :=
  let t := if ds.contains dTB then (s.domUp dTB).tbUp else s
  (ds.filter (· ≠ dTB)).foldl State.domUp t

/-- The power controller's answers for the stop under way: PWR_REQ falls now if it had to wait for PWR_ACK (R44), and
with both at 0 the domain has stopped. -/
def State.stopAck (s : State) : State :=
  match s.pwr.toStop with
  | d :: rest =>
    if s.pwr.phase ≠ 2 || s.lev.op = .sleepLevel then s
    else if bit s.pwr.req d then s.onPwr fun p => p.setReq d false
    else if bit s.pwr.ack d then s
    else
      ((s.entered d (SMap.get 0 s.pwr.targets d)).onPwr fun p =>
        { p with toStop := rest, stopped := p.stopped ++ [d] }).commitStep 30
  | [] => s

/-- The rollback is complete once every stopped domain is powered; the level that its commit has lowered is brought
back (R384). -/
def State.rollbackAck (s : State) : State :=
  if s.pwr.phase = 3 && s.pwr.stopped.all fun d => s.domSt d = 1 || (bit s.pwr.req d && bit s.pwr.ack d) then
    let lvl := s.pwr.entryLvl
    let t := s.domsUp s.pwr.stopped.reverse
    let t := t.onPwr fun p =>
      { p with phase := 0, named := 0, votes := 0, targets := [], stopped := [], lowered := p.wasLow,
               doze := p.stopped.foldl (fun m d => maskSet m d false) p.doze, rollbacks := satInc 16 p.rollbacks }
    let t := t.sleepResult 6 s.pwr.eddy.domain
    if s.pwr.wasLow || t.lev.cur = lvl || t.lev.pend.isSome then t
    else t.onLev fun x => { x with pend := some (lvl, true) }
  else s

/-- Woken domains that are powered are ready; the first that comes from DORMANT brings the level held at entry back
(R383, R387). -/
def State.wakeAck (s : State) : State :=
  let ds := (domsOf s.pwr.waking).filter fun d => bit s.pwr.req d && bit s.pwr.ack d
  let t := s.domsUp ds
  if s.pwr.lowered && ds.any fun d => s.domSt d = 3 then
    t.onPwr fun p => { p with lowered := false, restore := true }
  else t

/-- Domains whose PWR_REQ is to be 1: those that wake and those that a rollback brings back. -/
def State.toRaise (s : State) : List Nat :=
  domsOf s.pwr.waking ++ if s.pwr.phase = 3 then s.pwr.stopped.filter fun d => 2 ≤ s.domSt d else []

/-- PWR_ACK takes new values: stops, rollbacks and wakes go on, and a PWR_REQ that had to wait for PWR_ACK rises (R44).
-/
def State.powerAck (s : State) (ack : BitVec 28) : State :=
  let t := (s.onPwr fun p => { p with ack := ack }).stopAck.rollbackAck.wakeAck
  (t.toRaise.foldl State.raiseReq t).seqNext

/-- VGOOD is back: the change goes on, or the commit that lowered the level (R383). -/
def State.vgoodBack (s : State) (ms : List Margins) : State :=
  let t := s.voltageReached ms
  if s.lev.op = .sleepLevel then (t.commitStep 30).rollbackAck else t

/-- VGOOD has not come back; a commit goes on at PL0. -/
def State.vgoodLost (s : State) : State :=
  let t := s.voltageLost
  if s.lev.op = .sleepLevel then (t.commitStep 30).rollbackAck else t

/-! ### The wake of every domain (R386) -/

/-- Every domain is ON. -/
def State.allOn (s : State) : Bool := (List.range 28).all fun d => s.domSt d = 0

/-- A warm reset wakes every domain: a sleep request under way ends, what its stop has begun counts as stopped, and a
level that it lowered comes back. -/
def State.wakeAll (s : State) : State :=
  let t := match s.pwr.toStop with
    | d :: _ => if s.pwr.phase = 2 && bit s.pwr.isoEn d then s.entered d (SMap.get 0 s.pwr.targets d) else s
    | [] => s
  let back := (s.pwr.phase = 2 || s.pwr.phase = 3) && s.pwr.lowered && !s.pwr.wasLow && s.lev.pend.isNone &&
    s.lev.cur ≠ s.pwr.entryLvl
  let t := if back then t.onLev fun x => { x with pend := some (s.pwr.entryLvl, true) } else t
  let t := t.onPwr fun p =>
    { p with phase := 0, named := 0, votes := 0, targets := [], toStop := [], stopped := [], doze := 0,
             latched := [], lowered := p.lowered && !back }
  (List.range 28).foldl State.wakeDom t

/-! ### Holds (R379, R382, R383) -/

/-- A secure write of PWR_HOLD. -/
def State.holdClear (s : State) (v : BitVec 28) : State :=
  s.onPwr fun p => { p with hold := p.hold &&& ~~~ v }

/-- A secure write of PWR_HOLD_SET: a held domain that sleeps wakes, a commit rolls back, a normal-world request
in its prepare phase ends. -/
def State.holdSet (s : State) (v : BitVec 28) : State :=
  let t := s.onPwr fun p => { p with hold := p.hold ||| v }
  let named := (domsOf v).find? fun d => bit s.pwr.named d
  let t := match named, s.pwr.phase with
    | some d, 1 => if s.pwr.reqWorld then t else t.sleepEnd 1 d
    | some d, 2 => t.eddyLatch 7 d
    | some d, 3 => t.eddyLatch 7 d
    | _, _ => t
  ((domsOf v).filter fun d => !s.committing d).foldl State.wakeDom t

/-- A wake is under way or queued. -/
def State.wakes (s : State) (d : Nat) : Bool := bit s.pwr.waking d || bit s.pwr.wakeQ d

/-- What a domain is waited for in has not ended within 100 µs: WAKE_FAIL, and for a wake self-source 1,005, once per
wake (R19, R389). -/
def State.wakeFails (s : State) (d : Nat) : State :=
  let t := s.onPwr fun p => { p with wakeFail := true, wfDom := if p.wakeFail then p.wfDom else d,
                                     failing := maskSet p.failing d (s.wakes d) }
  if bit s.pwr.failing d || !s.wakes d then t else t.powerEvent false d 5 0

end Sys2Proof.Machine
end

