-- ==== Sys2Proof/Machine/Boot.lean ====
section
/-!
DEFINITION. Resets and the start: always-on power-on, cold and warm reset, the steps and exits of the start, READY
(R9, R59 to R78).
-/

namespace Sys2Proof.Config

/-- What a pulse of 8 to 31 AOCLK cycles on CRST_N or WRST_N makes of the block: R9 calls it undefined. `none` stands
for no effect (assumption log entry 6). -/
opaque afterPulse : Nat → Machine.State → Option Machine.State

end Sys2Proof.Config

namespace Sys2Proof.Machine

/-! ### Pulses on the reset inputs (R8, R9) -/

/-- Which delivery ports are held in reset is outside the block. -/
def State.sameResets (s from_ : State) : State :=
  (List.range 16).foldl (fun t n => t.onPort n fun x => { x with inReset := (from_.port n).inReset }) s

/-- The undefined effect of R9 reaches nothing that lies outside the block or that a cold reset keeps, so that it ends
at the next valid cold reset. -/
def State.undefinedPulse (s : State) : State :=
  match Config.afterPulse s.free s with
  | none => s.drawn
  | some t =>
    { t.sameResets s with
      pending := s.pending, free := s.free + 1, tap := s.tap,
      boot := { t.boot with log := s.boot.log, aoUp := s.boot.aoUp, poweredOn := s.boot.poweredOn,
                            bootcnt := s.boot.bootcnt, crst := s.boot.crst, wrstLow := s.boot.wrstLow },
      straps := { t.straps with dbgNow := s.straps.dbgNow },
      cfl := { t.cfl with lines := s.cfl.lines },
      keys := { t.keys with copyA := s.keys.copyA, copyB := s.keys.copyB, commit := s.keys.commit },
      lev := { t.lev with lvls := s.lev.lvls, reads := s.lev.reads },
      tb := { t.tb with aoRatio := s.tb.aoRatio, aoWindow := s.tb.aoWindow },
      reg := { t.reg with sec := { t.reg.sec with logSel := s.reg.sec.logSel },
                          nor := { t.reg.nor with logSel := s.reg.nor.logSel } } }

/-- A pulse on CRST_N or WRST_N: too short to pass the filter, of undefined effect, or valid (R9). -/
def pulse (width : Nat) (s t : State) : State :=
  if width < 8 then s else if width < 32 then s.undefinedPulse else t

/-! ### What a reset keeps (R73) -/

/-- The delivery ports as a reset leaves them: those that are held in reset stay so. -/
def State.portsHeld (s : State) : SMap Port :=
  (List.range 16).foldl (fun m n => SMap.set {} m n { inReset := (s.port n).inReset }) []

/-- What always-on power-on and power-off keep: the key store, the pins outside and the model's own fields. -/
def State.aoCleared (s : State) : State :=
  { State.reset with
    pending := s.pending, free := s.free,
    straps := { dbgNow := s.straps.dbgNow },
    cfl := { lines := SMap.mapVals {} (fun _ x => { pin := x.pin }) s.cfl.lines },
    ports := s.portsHeld,
    keys := s.tearCommit.keys.cleared }

/-- What a cold reset keeps besides: boot log, BOOTCNT, ageing, the AOCLK ratio, GLB_BOOTLOG_SEL and the test access
port (R73, R254, R391, R411, R446). -/
def State.coldCleared (s : State) : State :=
  { s.aoCleared with
    boot := { log := s.boot.log, aoUp := s.boot.aoUp, poweredOn := s.boot.poweredOn,
              bootcnt := (s.boot.bootcnt + 1) % 65536 },
    lev := { lvls := s.lev.lvls, reads := s.lev.reads },
    tb := { aoRatio := s.tb.aoRatio, aoWindow := s.tb.aoWindow },
    reg := { sec := { logSel := s.reg.sec.logSel }, nor := { logSel := s.reg.nor.logSel } },
    tap := s.tap }

/-! ### Steps and exits (R61 to R66, R72) -/

/-- Write the entry of a step or exit; TIME is a free value (assumption log entry 1). -/
def State.stepLog (s : State) (step outcome : Nat) : State :=
  (s.bootLog step outcome (Config.bootTime s.free % 2 ^ 23)).drawn

/-- Write the marker of a reset at the start of its sequence. -/
def State.markReset (s : State) (cause : Nat) : State := s.bootLog 0x1F cause 0

/-- The step in progress. -/
def State.atStep (s : State) (n : Nat) : State := s.onBoot fun b => { b with step := n }

/-- A failure exit of the step in progress. EXIT keeps the mismatch that leads to SAFE_MINIMAL (R65). -/
def State.exitAt (s : State) (code : Nat) : State :=
  (s.onBoot fun b => { b with exit := if b.warmSafe then b.exit else code }).stepLog s.boot.step code

/-- The step in progress passes. -/
def State.stepPass (s : State) : State := s.stepLog s.boot.step 0

/-- The step in progress has taken an exit since the marker of this sequence. -/
def State.stepExited (s : State) : Bool :=
  (s.boot.log.takeWhile fun x => x.step != 0x1F).any fun x => x.step == s.boot.step && x.outcome != 0

/-- The step in progress ends: with the entry of a pass, unless it has taken an exit that lets the sequence go on
(R72). -/
def State.stepDone (s : State) : State := if s.stepExited then s else s.stepPass

/-- A step that passes, or ends the start in HALTED (R64). -/
def State.haltAt (s : State) (code : Nat) : State :=
  let t := (s.exitAt code).onBoot fun b => { b with mode := .halted, exit := code }
  (t.onSaf fun x => { x with rails := .error, fatalOut := true }).allIdle

/-- The next step of a start that has not halted (R62). -/
def State.andThen (s : State) (f : State → State) : State := if s.boot.mode = .halted then s else f s

/-- Step 1: straps, debug enables and RST_WDT; a reserved HW_ROLE is logged here (R51, R54, R63, R78). The model's
choice: RST_WDT = 1 at the first start after an always-on power-on shows the cause of R78, not that of R71 (DESIGN
CHOICE, assumption log entry 59). -/
def State.step1 (s : State) (e : StartEnv) : State :=
  let cause := if e.rstWdt then 2 else if s.boot.poweredOn then 0 else 1
  let t := (s.markReset cause).onBoot fun b =>
    { b with mode := .starting, crst := true, held := none, cause := cause, poweredOn := false, step := 1, exit := 0,
             warm := false, warmSafe := false }
  let t := t.onStraps fun x =>
    { x with devid := e.devid.toNat, hwRole := e.hwRole.toNat, imgSel := e.imgSel, rstWdt := e.rstWdt,
             dbgSamp := e.dbg, dbgLive := e.dbg &&& x.dbgNow }
  (t.onSaf fun x => { x with rails := .healthy }).stepLog 1 (if e.hwRole = 3 then 9 else 0)

/-- FUSE_REQ rises with a stable address (R50). -/
def Straps.fuseRaise (x : Straps) (k : Nat) : Straps := { x with fuseReq := true, fuseAddr := Config.fuseAddr k }

/-- FUSE_RDATA is sampled while FUSE_ACK answers the request. -/
def Straps.fuseSample (x : Straps) (w : BitVec 32) : Straps := if x.fuseReq then { x with shadow := x.shadow ++ [w] } else x

/-- FUSE_REQ falls, and the next read waits until FUSE_ACK has fallen too. -/
def Straps.fuseLower (x : Straps) : Straps := { x with fuseReq := false }

/-- The fuse words are read one after the other into the shadow (R50, R61). -/
def Straps.fuseRead (x : Straps) (ws : List (BitVec 32)) : Straps :=
  ws.zipIdx.foldl (fun y w => ((y.fuseRaise w.2).fuseSample w.1).fuseLower) { x with shadow := [] }

/-- Step 2: the fuse shadow (R50, R61). -/
def State.step2 (s : State) (f : Fuses) : State :=
  let t := (s.atStep 2).onStraps fun x => x.fuseRead f.words
  if !f.crcOk then t.haltAt 1
  else if 3 < f.lcs.toNat then t.haltAt 2
  else
    (t.onStraps fun x =>
      { x with lcs := f.lcs.toNat, ptrA := f.ptrA, ptrB := f.ptrB, genStr := f.genStr.toNat,
               genStw := f.genStw.toNat, genLane := f.genLane.toNat,
               roots := [f.rootMfg, f.rootProd, f.rootRet, f.rootTest],
               vkeys := [f.vkey1, f.vkey2, f.vkey3, f.vkey4] }).stepPass

/-- An invasive debug enable was set at the de-assertion of CRST_N. -/
def Straps.invasive (x : Straps) : Bool := bit x.dbgSamp 3 || bit x.dbgSamp 1

/-- Step 3: root and keys; a DECOMMISSIONED device starts only with an invasive enable (R63, R412). -/
def State.step3 (s : State) : State :=
  let t := s.atStep 3
  if s.straps.lcs = 3 && !s.straps.invasive then t.haltAt 3 else t.formKeys.stepPass

/-- One domain is powered: PWR_REQ rises while PWR_ACK equals it, the controller answers, then the outputs are
released (R44). -/
def State.powerOne (s : State) (d : Nat) : State :=
  let t := s.raiseReq d
  (t.onPwr fun p => { p with ack := maskSet p.ack d (bit p.req d) }).onPwr fun p =>
    if bit p.ack d then { p with isoEn := maskSet p.isoEn d false } else p

/-- Domains are powered one after the other. -/
def State.powered (s : State) (ds : List Nat) : State := ds.foldl State.powerOne s

/-- Domains of step 4 in their order: STW, CFL, the array quadrants, WEIR and TB; the rest are powered at step 10. -/
def step4Doms : List Nat := [dSTW, dCFL, 2, 3, 4, 5, dWEIR, dTB]

/-- Step 4: PLLs and domains; the count runs from here. -/
def State.step4 (s : State) (ok : Bool) : State :=
  let t := s.atStep 4
  if ok then ((t.powered step4Doms).onTb fun b => { b with running := true }).stepPass else t.haltAt 4

/-- Step 5: the steward's ROM. -/
def State.step5 (s : State) (ok : Bool) : State := if ok then (s.atStep 5).stepPass else (s.atStep 5).haltAt 5

/-- The exit and FAIL code of an image set: 6 without one, 7 with the first failure in the order structure, steward,
lane (R63, R101). -/
def State.setCode (s : State) (m : Option ImageSet) : Nat × Nat :=
  match m with
  | none => (6, 0)
  | some x =>
    match [s.verify 1 x.structureImg 0, s.verify 2 x.steward 0, s.verify 3 x.lane 0].find? (· ≠ 0) with
    | some c => (7, c)
    | none => (0, 0)

/-- The verified images are held: firmware and the structure image's identity. -/
def State.loadImages (s : State) (x : ImageSet) : State :=
  s.onImg fun i =>
    { i with activeGen := x.structureImg.hdr.gen.toNat, activeVer := x.structureImg.hdr.version,
             compat := compatOf x.structureImg, digest := imageDigest x.structureImg,
             stwCompat := compatOf x.steward, stwVer := x.steward.hdr.version, stwGen := x.steward.hdr.gen.toNat,
             stwDigest := imageDigest x.steward, laneCompat := compatOf x.lane, laneVer := x.lane.hdr.version,
             laneGen := x.lane.hdr.gen.toNat, laneDigest := imageDigest x.lane,
             stwCode := x.steward.code, stwData := x.steward.data, laneCode := x.lane.code, laneData := x.lane.data }

/-- A code of R101 that a start-up verification failed with (R106). -/
def State.noteFail (s : State) (c : Nat) : State :=
  if c = 0 then s else s.onImg fun i => { i with fail := c, startFail := c }

/-- What a pointer's fetch gives: a zero pointer means no image (R6), a FAULT or a reserved code none either (R14,
R29). -/
def pointed (ptr : BitVec 48) (m : MemEnd) (f : ImageSet) : Option ImageSet := if ptr = 0 || !m.ok then none else some f

/-- The image set that step 6 uses: the selected pointer's, else the other's when that pointer is not zero. -/
def State.usedSet (s : State) (e : StartEnv) : Option ImageSet :=
  let a := pointed s.straps.ptrA e.respA e.fetchA
  let b := pointed s.straps.ptrB e.respB e.fetchB
  let first := if e.imgSel then b else a
  if (s.setCode first).1 = 0 then first else if e.imgSel then a else b

/-- Bytes of the three images of a pointer. -/
def imageSetLen (x : ImageSet) : Nat :=
  x.structureImg.hdr.length.toNat + x.steward.hdr.length.toNat + x.lane.hdr.length.toNat

/-- The fetch of a pointer's images; a zero pointer has none (R6, R28, R61). -/
def State.fetchSet (s : State) (ptr : BitVec 48) (x : ImageSet) : State :=
  if ptr = 0 then s else s.stwRequest false ptr (imageSetLen x) []

/-- Step 6: fetch and verify, from the other pointer after a failure (R61, R63, R66). -/
def State.step6 (s : State) (e : StartEnv) : State :=
  let t := (s.atStep 6).fetchSet (if e.imgSel then s.straps.ptrB else s.straps.ptrA)
    (if e.imgSel then e.fetchB else e.fetchA)
  let a := pointed s.straps.ptrA e.respA e.fetchA
  let b := pointed s.straps.ptrB e.respB e.fetchB
  let c := s.setCode (if e.imgSel then b else a)
  let other := if e.imgSel then s.straps.ptrA else s.straps.ptrB
  if c.1 = 0 then
    match s.usedSet e with
    | some x => (t.loadImages x).stepPass
    | none => t
  else
    let t := t.noteFail c.2
    if other = 0 then t.haltAt c.1
    else
      let d := s.setCode (if e.imgSel then a else b)
      let t := ((t.exitAt c.1).noteFail d.2).fetchSet other (if e.imgSel then e.fetchA else e.fetchB)
      if d.1 = 0 then
        match s.usedSet e with
        | some x => (t.loadImages x).stepPass
        | none => t
      else t.haltAt d.1

/-! ### Step 7 (R61, R63, R102, R103, R392, R393) -/

/-- Exit 0x9: HW_ROLE, the image's role or its expected DEVID disagree. -/
def State.roleWrong (s : State) (b : ImageBody) : Bool :=
  s.straps.hwRole = 3 || !roleAgrees (casRole b) s.straps.hwRole || casExpDev b ≠ s.dev

/-- The first failed compatibility test of the loaded combination. -/
def State.compatFail (s : State) : Option (Nat × Nat × Nat) :=
  compatTest s.img.compat s.img.stwCompat s.img.laneCompat s.img.activeVer s.img.stwVer s.img.laneVer

/-- The highest level at or below `l` that is not retired. -/
def State.levelUpTo (s : State) (l : Nat) : Nat := if (s.lvl l).retired then s.lowerLevel l else l

/-- The block runs at the level that step 7 reaches. -/
def State.enterLevel (s : State) (l : Nat) : State :=
  s.onLev fun x =>
    { x with cur := l, tgt := l, vreq := s.code l, vgood := true, op := .idle, lastres := 0 }

/-- A reading that the cold start does not give is a free value (assumption log entry 1). -/
def bootMargin (i : Nat) : Margins :=
  let w := Config.bootMargins i
  { p := w.extractLsb' 0 8, s := w.extractLsb' 8 8, pworst := w.extractLsb' 16 5, sworst := w.extractLsb' 21 3 }

/-- The margin check of the boot level with the readings it takes: a retired level gives way to the next lower one,
PL0 takes no check, since nothing is raised (R392, R393). Three levels of at most 255 steps end within 1,024 readings. -/
def State.bootCheck (s : State) (t : Nat) : Nat → List Margins → State
  | 0, _ => s.enterLevel t
  | k + 1, ms =>
    if t = 0 then s.enterLevel 0
    else
      let m := ms.head?.getD (bootMargin s.free)
      let u := (if ms.isEmpty then s.drawn else s).noteMargins t m
      let x := u.lvl t
      if marginsBad m then
        if x.ceil ≤ x.code then State.bootCheck (u.retireLvl t m) (u.lowerLevel t) k ms.tail
        else State.bootCheck (u.stepUp t (.raise t)) t k ms.tail
      else if marginsLow m then
        if x.code < x.ceil then (u.stepUp t (.raiseEnd t)).enterLevel t
        else (u.onLvl t fun y => { y with atCeil := true }).enterLevel t
      else u.enterLevel t

/-- The boot level. Without VGOOD the block stays at PL0 and VREQ is held (exit 0xA, R43). The model's choice: a BOOT_PL
above 3 means level 3 (DESIGN CHOICE, assumption log entry 60). -/
def State.bootLevel (s : State) (b : ImageBody) (e : StartEnv) : State :=
  let t := s.ceilings b
  let l := t.levelUpTo (min 3 (bootPl b))
  if t.code l = t.lev.vreq || e.vgoodOk then (t.bootCheck l 1024 e.margins).stepPass
  else
    let u := (t.onLev fun x => { x with vreq := t.code l, vgood := false, lastres := 5 }).powerEvent true l 1 5
    (u.onBoot fun b => { b with plHeld := true }).exitAt 0xA

/-- Step 7. -/
def State.step7 (s : State) (b : ImageBody) (e : StartEnv) : State :=
  let t := s.atStep 7
  let c := s.compatFail
  let t := match c with
    | some f => (t.onImg fun i => { i with compatTest := BitVec.ofNat 24 (f.1 + f.2.1 * 256 + f.2.2 * 65536) }).noteFail 8
    | none => t
  if s.roleWrong b then (t.exitAt 9).onBoot fun b => { b with warmSafe := true }
  else if c.isSome then (t.exitAt 8).onBoot fun b => { b with warmSafe := true }
  else t.bootLevel b e

/-! ### Steps 8 and 9 (R61, R63, R165, R200) -/

/-- Failed banks of an array that are not mapped out already. -/
def Stripe.newBad (x : Stripe) (bad : List (BitVec 6)) : List Nat :=
  (bad.map BitVec.toNat).eraseDups.filter fun k => k ≠ x.failed1 && k ≠ x.failed2

/-- The one bank that start-up finds failed is rebuilt into the spare (R165); a failed spare is no longer used. The
record's DETAIL and row are free values (assumption log entry 1). -/
def State.spareAtStart (s : State) (pla : Bool) (k : Nat) : State :=
  let d := Config.startBank s.free
  let t := s.onStripe pla fun x =>
    { x with mode := .spared, failed1 := k, rebuildRow := 65536 }
  let t := t.onBoot fun b =>
    if k = 33 then b else if pla then { b with sparePla := true } else { b with spareSsa := true }
  (t.fail 0x05 none 6 (arrObj (b2n pla) k (d / 65536 % 65536)) (d % 65536)).drawn.exitAt 0xB

/-- The banks of one array at step 8: one failed bank uses the spare, more halt the block. -/
def State.banksAtStart (s : State) (pla : Bool) (bad : List (BitVec 6)) : State :=
  match (s.stripe pla).newBad bad with
  | [] => s
  | [k] => if (s.stripe pla).mode = .normal then s.spareAtStart pla k else s.haltAt 0xC
  | _ => s.haltAt 0xC

/-- Step 8: the arrays are cleared; the scrub starts again at row 0. -/
def State.step8 (s : State) (t : SelfTest) : State :=
  let u := (s.atStep 8).banksAtStart false t.ssaBad
  let u := u.andThen fun v => v.banksAtStart true t.plaBad
  u.andThen fun v =>
    (v.onStripes fun x =>
      { x with row := 0, ssa := { x.ssa with ueRows := [], ceRows := [] },
               pla := { x.pla with ueRows := [], ceRows := [] } }).stepDone

/-- Step 9: the Weir copies and the clock monitor (R200). -/
def State.step9 (s : State) (t : SelfTest) : State :=
  let u := s.atStep 9
  if !t.clockOk || (!t.weirA && !t.weirB) then
    (if t.weirA || t.weirB then u else u.onWeir fun w => { w with mode := .failed }).haltAt 0xE
  else if t.weirA && t.weirB then
    ((u.onWeir fun w => { w with mode := .lockstep }).onBoot fun b => { b with weirFenced := false }).stepPass
  else
    let m : WeirMode := if t.weirA then .fencedB else .fencedA
    let u := (u.onWeir fun w => { w with mode := m }).onBoot fun b => { b with weirFenced := true }
    (u.fail 0x01 none 0 0 (if t.weirA then 4 else 3)).exitAt 0xD

/-! ### Step 10 (R61, R379) -/

/-- An image assigns anything to the secure world. -/
def anySecure (b : ImageBody) : Bool :=
  b.wired.any wiredWorld || b.locked.any lockedWorld || b.slices.any (fun r => bit r 24) ||
  b.groups.any grpWorld || (List.range 1024).any fun c => ctxRecInUse b c && ctxWorld c

/-- A source of quadrant `q` has WORLD = 1. -/
def secureQuad (b : ImageBody) (q : Nat) : Bool :=
  (q == 0 && (b.wired.any wiredWorld || b.locked.any lockedWorld)) ||
  b.pools.any fun r => recWorld b (poolSlice r) == some true &&
    (List.range (poolCount r)).any fun k => unitFirst (poolFirst r + k) / 524288 == q

/-- A domain holds a secure resource in use (R379). -/
def secureDom (b : ImageBody) (d : Nat) : Bool :=
  if d = dSTW || d = dCFL || d = dWEIR || d = dTB then anySecure b
  else if d < 6 then secureQuad b (d - 2)
  else if d < 23 then (portCtxs (d - 7)).any fun c => ctxRecInUse b c && ctxWorld c
  else casLanes b (d - 23) ≠ 0

/-- The lane map and the ports of an image; a device without a cascade role trains no port (R94, R95, R332). -/
def State.loadPorts (s : State) (b : ImageBody) : State :=
  let t := (List.range 16).foldl (fun t l => t.onLane l fun _ =>
    if casRole b = 0 then { mappedLane b l with state := .disabled } else mappedLane b l) s
  let t := (List.range 4).foldl (fun t p =>
    if casRole b = 0 || casLanes b p = 0 then t
    else t.onLport p fun _ =>
      { nbrDev := casNbrDev b p, nbrPort := casNbrPort b p, state := .down,
        lanes := { enabled := true, lanes := casLanes b p } }) t
  let hw := if casRole b = 2 then s.dev else casHead b % 8
  let t := t.onCas fun c => { c with hwdev := if casRole b = 0 then 0 else hw }
  if casRole b = 2 then t.onTb fun x => { x with state := .source } else t

/-- Step 10: the structure, or what SAFE_MINIMAL uses of it; the delivery ports take messages from its end (R32). -/
def State.step10 (s : State) (b : ImageBody) : State :=
  let t := s.atStep 10
  let t := if s.boot.warmSafe then t.loadSafe b else (t.loadStructure b).loadPorts b
  let t := (t.powered (List.range 28)).onPwr fun p =>
    { p with hold := (List.range 28).foldl (fun m d => maskSet m d (secureDom t.img.active d)) 0 }
  ((List.range 16).foldl (fun u n =>
    if (u.port n).inReset then u else u.onPort n fun x => { x with uReady := true }) t).stepPass

/-! ### READY (R61 step 14, R65, R68, R72, R74) -/

/-- The count entries of R72. -/
def State.countEntries (s : State) : State :=
  let cap := min 8388607
  let t := if s.boot.refusedDb = 0 then s else s.bootLog 0x1C 1 (cap s.boot.refusedDb)
  let t := if s.boot.refusedUp = 0 then t else t.bootLog 0x1C 2 (cap s.boot.refusedUp)
  t.onBoot fun b => { b with refusedDb := 0, refusedUp := 0 }

/-- Every captured line is sampled afresh: a level line or sovereign line that is asserted is reported with the READY
instant, an edge line takes its level as the reference (R68, R74, R117). -/
def State.sampleLines (s : State) : State :=
  let pins := s.cfl.lines.map Prod.fst ++ ((List.range 984).map (16 + ·)).filter fun n =>
    wiredLow (wiredRec s.img.active n) && !s.cfl.lines.any fun p => p.1 == n
  pins.foldl (fun t n =>
    if isPin n && t.captured n then
      let lvl := t.asserted n (t.line n).pin
      if (t.entry n).trig && lvl then t.reportWired n t.now true else t.onLine n fun x => { x with level := lvl }
    else t) s

/-- Entry to READY, which a FATAL reaction during the start forestalls (R402). A timebase that is still aligning slews
from here (R252, R269). -/
def State.enterReady (s : State) : State :=
  s.unlessFatal fun s =>
  let raise := s.boot.readyRaise
  let t := s.onBoot fun b =>
    { b with mode := if b.warmSafe then .safeMinimal else .ready, step := 14, readyRaise := [], noticed := false,
             warmTest := none }
  let t := t.onWeir fun w => { w with visited := s.now.toNat / 1000 }
  let t := if t.tb.state = .aligning then t.onTb fun b => { b with state := .slewing } else t
  let t := if s.boot.warmSafe || s.boot.warm then t else t.onSlc 0 fun x => { x with state := .active }
  (raise.foldl State.raiseSelf t.countEntries.sampleLines).fetchStaged

/-! ### Steps 11 to 13 (R61, R69, R70) -/

/-- An attempt without a bit error that locks with a skew, or that does not lock. -/
def attemptOf (pass : Bool) (skew : BitVec 16) : Attempt :=
  { locked := pass, errMid := 0, errHi := 0, errLo := 0, skew := skew }

/-- A port trains its lanes: the TS blocks that they hear, then what the attempts end in, three of them for a lane that
does not pass, its skew among the reasons; lanes beyond the partner's count are not used, and a port that uses none is
DOWN (R298, R307 to R309). -/
def State.trainAtStart (s : State) (e : StartEnv) (p : Nat) : State :=
  let t := (e.ts.filter fun q => lanePort q.1.toNat == p).foldl (fun t q => t.tsHeard q.1.toNat q.2) (s.trainPort p)
  let r (l : Nat) : Attempt := attemptOf (bit e.trained l) (e.skews.getD l 0)
  ((t.usedLanes p).foldl (fun t l =>
    (List.range (if attemptPasses (r l) then 1 else 3)).foldl
      (fun u _ => u.attemptEnd l (r l) (e.codes.getD l { ctle := 0, bw := 0, ph := 0 })) t) t).trainDone p

/-- Ports that the image enables. -/
def State.enabledPorts (s : State) : List Nat := (List.range 4).filter fun p => (s.lport p).lanes.enabled

/-- A port is in training or authentication. -/
def State.portsBusy (s : State) : Bool :=
  s.enabledPorts.any fun p => (s.lport p).state = .training || (s.lport p).state = .auth

/-- A discovery frame of the headwater on every port that is UP (R69). -/
def State.discover (s : State) : State :=
  if s.cas.role = 2 then s.flood none (s.topoFrame 0 1 false 0) else s

/-- Step 13 ends with READY. -/
def State.joined (s : State) : State := s.stepDone.enterReady

/-- A warm start waits for the exchange that checks its alignment: it follows an upstream whose port is UP (R74 step
4). -/
def State.awaitsCheck (s : State) : Bool := s.tb.tracking && (s.lport s.tb.uport).state = .up

/-- A warm start in its time check, or its time check at its end. -/
def State.atCheck (s : State) : Bool := s.boot.mode = .starting && s.boot.warm && !s.boot.wrstLow && s.boot.step = 13

/-- A warm start enters READY when no neighbour is left to check the alignment against. -/
def State.checkOver (s : State) : State := if s.atCheck && !s.awaitsCheck then s.joined else s

/-- The headwater sends the cascade-ready notice (R69). -/
def State.sendNotice (s : State) : State := s.flood none (s.topoFrame 0 3 false 0)

/-- Step 13 begins: a warm start checks its alignment, a headwater floods DISCOVER, another device reports; a notice
that came early acts now, and a headwater whose devices have all reported sends its own (R69, R74). -/
def State.beginJoin (s : State) : State :=
  let t := s.atStep 13
  if t.boot.warm then t.checkOver
  else
    let t := if t.cas.role = 2 then t.discover else t.sendReport
    if t.cas.role = 2 && t.allAligned then t.sendNotice.joined else if t.boot.noticed then t.joined else t

/-- Once no port trains or authenticates, step 12 has ended. -/
def State.linksSettled (s : State) : State :=
  if s.boot.mode ≠ .starting || s.boot.wrstLow || s.boot.step ≠ 12 || s.portsBusy then s
  else s.stepDone.beginJoin

/-- A port that step 11 or 12 has taken DOWN is an exit 0xF, raised as self-source 1,004 at READY (R63). -/
def State.portExit (s before : State) (p : Nat) : State :=
  let was := (before.lport p).state
  if s.boot.mode = .starting && (was = .auth || was = .training) && (s.lport p).state = .down then
    (s.exitAt 0xF).raiseSelf 1004
  else s

/-- After a change of a port (R61, R63, R74). -/
def State.portSettled (s before : State) (p : Nat) : State := (s.portExit before p).linksSettled.checkOver

/-- After a change that may have taken any port DOWN. -/
def State.portsSettled (s before : State) : State :=
  ((List.range 4).foldl (fun t p => t.portExit before p) s).linksSettled.checkOver

/-- Step 12 begins on every trained port; one that cannot authenticate takes its exit (R61, R63). -/
def State.authPorts (s : State) : State :=
  (s.enabledPorts.filter fun p => (s.lport p).state = .auth).foldl (fun u p => (u.authBegin p).portExit u p) s

/-- Step 11 and the beginning of step 12. -/
def State.step11 (s : State) (e : StartEnv) : State :=
  let t := s.enabledPorts.foldl (fun t p => t.trainAtStart e p) (s.atStep 11)
  let t := (t.enabledPorts.filter fun p => (t.lport p).state = .down).foldl
    (fun u _ => (u.exitAt 0xF).raiseSelf 1004) t
  (t.stepDone.atStep 12).authPorts.linksSettled

/-! ### The cold start (R59, R61, R62) -/

/-- What follows the verified images. -/
def State.startWith (s : State) (b : ImageBody) (e : StartEnv) : State :=
  let t := ((s.step7 b e).step8 e.test).andThen fun t => t.step9 e.test
  t.andThen fun t =>
    let t := t.step10 b
    if t.cas.role = 0 then t.enterReady else t.step11 e

/-- Steps 1 to 14. -/
def State.startUp (s : State) (e : StartEnv) : State :=
  let t := (s.step1 e).step2 e.fuses
  let t := t.andThen State.step3
  let t := t.andThen fun t => t.step4 e.pllOk
  let t := t.andThen fun t => t.step5 e.romOk
  let u := t.andThen fun t => t.step6 e
  u.andThen fun u =>
    match t.usedSet e with
    | some x => u.startWith (normBody x.structureImg) e
    | none => u

/-- CRST_N rises: the start begins, or waits for the always-on domain (R59). -/
def State.coldStart (s : State) (e : StartEnv) : State :=
  if s.boot.crst then s
  else
    let t := s.onStraps fun x => { x with dbgNow := e.dbg }
    if s.boot.aoUp then t.startUp e else t.onBoot fun b => { b with crst := true, held := some e }

/-- AO_POR_N rises and the always-on domain becomes ready. -/
def State.aoPowerOn (s : State) : State :=
  if s.boot.aoUp then s
  else
    let t := s.aoCleared.onBoot fun b => { b with aoUp := true }
    match s.boot.held with
    | some e => t.startUp e
    | none => t

/-- AO_POR_N falls: the always-on domain is off, and the next start takes its straps again (R10). -/
def State.aoPowerOff (s : State) : State := s.aoCleared

/-- The device has a path to a headwater: the headwater itself has one over any port that is UP. -/
def State.hasPath (s : State) : Bool :=
  if s.cas.role = 2 then s.upPorts ≠ [] else (s.nextHop s.cas.hwdev).isSome

/-- READY alone, the timebase running free (R70, R334). -/
def State.readyAlone (s : State) : State :=
  if s.boot.mode = .starting && !s.boot.wrstLow && 11 ≤ s.boot.step then s.tbFree.stepDone.enterReady else s

/-- 20 ms after CRST_N rose without a path to a headwater (R70). -/
def State.joinTimeout (s : State) : State :=
  if s.boot.mode = .starting && !s.boot.warm && !s.hasPath then s.readyAlone else s

/-- The cascade-ready notice reaches this device: in step 13 it enters READY, before it the notice is kept (R69). -/
def State.noticeReady (s : State) : State :=
  if s.boot.mode ≠ .starting || s.boot.warm then s
  else if s.boot.step = 13 then s.joined
  else s.onBoot fun b => { b with noticed := true }

/-! ### Warm reset (R74, R75) -/

/-- A firing of an edge or message source, as a warm reset discards it; level lines are sampled afresh at READY. -/
def State.isEvent (s : State) (n : Nat) : Bool := !((s.entry n).trig && n < 1000)

/-- Sources of pending messages and edge events, wherever their firings stand: in the arrays, the window, resolution, a
latch, or held for another device. -/
def State.discarded (s : State) : List Nat :=
  let cells := (s.arr.cells.filter fun p =>
    p.2.state = .pending || p.2.state = .presented || p.2.state = .activePending).map Prod.fst
  let fired := (s.cfl.window.filter fun w => w.kind = .fire).map WinEnt.src ++
    (s.cfl.res.filter fun f => f.kind = .fire).map Firing.src
  let latched := (s.cfl.latches.filter fun p => p.2.valid && p.2.kind = .fire).map Prod.fst ++
    s.pwr.asyncs.map Prod.fst
  let held := (s.cas.fwds.filter fun q => q.2.any fun f => f.held.isSome).map Prod.fst
  ((cells ++ fired ++ latched ++ held).filter s.isEvent).eraseDups

/-- What the discard entry of R72 counts: sources. -/
def State.discardCount (s : State) : Nat := s.discarded.length

/-- Every SSA entry IDLE, the PLA, the Queue Head Table, the wheel and the stacks empty (R74 step 1, R73). -/
def State.dropStates (s : State) : State :=
  let t := State.onArr { s with upsets := [] } fun a =>
    let cells := a.cells.foldl (fun m p => SMap.set (baseEntry a p.1) m p.1 { p.2 with state := .idle }) a.cells
    ({ a with pla := [], base := SMap.mapVals {} (fun _ b => { b with stamp := 0 }) a.base, masked := [], exits := [], cells := cells } : Arr).parityFresh
  let t := t.onWeir fun w =>
    { w with queues := [], links := [], wheel := [], worldErr := [], sleptAt := none, longSleep := none,
             linkRebuild := false }
  t.onCtxs fun m => SMap.mapVals {} (fun _ x => { x with stack := [], pres := none }) m

/-- The confluence: window, resolution, latches and the order of admission; transferred doorbell writes that have not
been admitted end with FAULT (R22). -/
def State.dropConfluence (s : State) : State :=
  (s.dropDb.onCfl fun c =>
    { c with window := [], res := [], latches := [], allowance := 192, sinceC4 := 0, vnow := 0, bestNext := 0,
             memVnow := 0, memNext := 0 }).onPwr fun p => { p with asyncs := [] }

/-- Slices that were moving return to QUIESCED, transfers end. -/
def State.dropTransfers (s : State) : State :=
  s.onSlcs fun m => SMap.mapVals {} (fun _ x =>
    { x with state := match x.state with
               | .quiescing => .quiesced
               | .frozen => .quiesced
               | .restoring => .quiesced
               | st => st,
             xfer := .none, purging := false, saveImg := none, armed := true, vt := 0, memVt := 0,
             wasReady := false }) m

/-- Delivery ports: nothing offered, every tag free, AWAKE 0 until its next sample (R37). -/
def State.dropDelivery (s : State) : State :=
  s.onPorts fun m =>
    SMap.mapVals {} (fun _ x => { x with awake := 0, down := [], retired := [], dstall := false, upq := [] }) m

/-- The cascade role that the structure image gives, at role epoch 0, with nothing known of the other members (R352); a
headwater notes that no link of its own is UP (R350). -/
def State.roleAfresh (s : State) : State :=
  let b := s.img.active
  let t := s.onCas fun c =>
    { c with role := casRole b, epoch := 0, members := 0,
             hwdev := if casRole b = 0 then 0 else if casRole b = 2 then s.dev else casHead b % 8 }
  if t.cas.role = 2 then t.linkChanged else t

/-- The link layer: every session ends and its port is DOWN until step 12; a QUARANTINED port stays one (R366). -/
def State.dropLinks (s : State) : State :=
  let t := s.enabledPorts.foldl (fun t p =>
    let x := s.lport p
    let up := x.state = .up
    let t := (t.onLport p fun y =>
      { y.noSession with state := if x.state = .quarantined then .quarantined else .down,
                         reason := if up then 0 else y.reason }).onLauthOf p fun a =>
      { a.noSession with wasUp := up }
    if x.state = .up then t.linkState p 1 0 else t) s
  ((t.onCas fun c =>
    { c with proxies := [], fwds := [], e2e := [], alarms := [], avail := [], changed := [], rotation := 0,
             noted := [] }).onTb fun b => { b with marks := [] }).roleAfresh

/-- The steward restarts: the running mailbox command ends ABORTED and the mailbox is free (R400, R452). -/
def State.stewardRestart (s : State) : State :=
  s.onMbx fun m => { m with owned := false, busy := false, status := if m.busy then 4 else m.status }

/-- The steward restarts: an image that is staged is discarded, the running mailbox command ends ABORTED (R112,
R452). -/
def State.dropSteward (s : State) : State :=
  let t := if s.img.stage = .none then s else s.stageDiscard
  t.stewardRestart.onSaf fun x => { x with stwHalted := false, stwStop := false, lastWdt := none }

/-- The synchronised fall of WRST_N, or an ignored one, which the boot log records. -/
def State.warmFall (s : State) : State :=
  if s.boot.mode = .halted then s.stepLog 0x1B 3
  else if s.fatal.inSeq then s.stepLog 0x1B 4
  else if s.boot.mode = .starting then s.stepLog 0x1B 0
  else
    let n := s.discardCount
    let t := s.onBoot fun b =>
      { b with mode := .starting, cause := 3, step := 0, warm := true, warmSafe := s.boot.mode == .safeMinimal,
               wrstLow := true, bootcnt := (b.bootcnt + 1) % 65536, refusedDb := 0, refusedUp := 0,
               readyRaise := [] }
    let t := (t.markReset 3).dropLinks.dropTransfers.dropDelivery.dropStates.dropConfluence.dropSteward
    if n = 0 then t else t.bootLog 0x1E 0 (min 8388607 n)

/-- The array clear completes a rebuild that runs. The model's choice: one that runs in DEGRADED leaves MODE DEGRADED,
since reconstruction goes on until the next cold reset (R167, R168; DEDUCED, assumption log entry 96). -/
def Stripe.cleared (x : Stripe) : Stripe :=
  if x.rebuildRuns then
    { x with mode := if x.mode = .rebuilding then .spared else x.mode, rebuildRow := 65536 }
  else x

/-- Step 1 of R74. The model's choice: GLB_BOOTST.STEP and the boot log number the steps of a warm start as those of a
cold start that do the same, 8, 9, 12, and 13 for the time check (DESIGN CHOICE, assumption log entry 97). -/
def State.warmClear (s : State) : State :=
  let t := s.onStripes fun x => { x with ssa := x.ssa.cleared, pla := x.pla.cleared }
  t.onBoot fun b =>
    { b with spareSsa := b.spareSsa || s.stripes.ssa.rebuildRuns,
             sparePla := b.sparePla || s.stripes.pla.rebuildRuns }

/-- Step 12 on every port that was up (R74 step 3). -/
def State.warmLinks (s : State) : State :=
  let t := s.atStep 12
  ((t.enabledPorts.filter fun p => (t.lauthOf p).wasUp && (t.lport p).state = .down).foldl
    (fun u p => (u.authBegin p).portExit (u.onLport p fun x => { x with state := .auth }) p) t).linksSettled

/-- The sequence of R74 once every domain is ON. -/
def State.warmSequence (s : State) (t : SelfTest) : State :=
  let u := (s.warmClear.step8 t).andThen fun v => v.step9 t
  u.andThen fun v => if v.cas.role = 0 then v.enterReady else v.warmLinks

/-- A warm reset that waits for its domains goes on when the last one is ON (R386). -/
def State.warmGo (s : State) : State :=
  s.unlessFatal fun s =>
  match s.boot.warmTest with
  | some t =>
    if s.allOn && s.boot.mode == .starting then (s.onBoot fun b => { b with warmTest := none }).warmSequence t else s
  | none => s

/-- The sequence after the rise of WRST_N: every domain wakes first (R386). -/
def State.warmRelease (s : State) (t : SelfTest) : State :=
  if !s.boot.wrstLow then s
  else if s.fatal.inSeq then s.onBoot fun b => { b with wrstLow := false }
  else ((s.onBoot fun b => { b with wrstLow := false, warmTest := some t }).wakeAll).warmGo

/-! ### Commands -/

/-- AO_POWER_ON (R59). -/
def execAoPowerOn (s : State) : Host.Outcome State Fault Refusal := .next s.aoPowerOn

/-- ALWAYS_ON_RESET (R10, R73). -/
def execAlwaysOnReset (s : State) : Host.Outcome State Fault Refusal := .next s.aoPowerOff

/-- COLD_RESET (R9, R73); CRST_N that is low has no pulse. -/
def execColdReset (width : Nat) (s : State) : Host.Outcome State Fault Refusal :=
  .next (if s.boot.crst then pulse width s s.coldCleared else s)

/-- COLD_START (R61). -/
def execColdStart (e : StartEnv) (s : State) : Host.Outcome State Fault Refusal := .next (s.coldStart e)

/-- CASCADE_JOIN_TIMEOUT (R70). -/
def execCascadeJoinTimeout (s : State) : Host.Outcome State Fault Refusal := .next s.joinTimeout

/-- WARM_RESET_RELEASE (R74). -/
def execWarmResetRelease (t : SelfTest) (s : State) : Host.Outcome State Fault Refusal := .next (s.warmRelease t)

end Sys2Proof.Machine
end

