-- ==== Sys2Proof/Machine/Integrity.lean ====
section
/-!
DEFINITION. Scrub, rebuild, Weir self-test and shadow checker, clock monitor, debug enables, steward watchdog and
the end of the fatal dump (R163 to R170, R179, R198 to R201, R400 to R402, R409, R410, R428, R437 to R440).
-/

namespace Sys2Proof.Machine

/-! ### Scrub and rebuild (R166 to R169) -/

/-- The scrub runs: step 9 has passed, no fatal sequence is in force, and the quadrant of its row is awake (R169,
R402). -/
def State.scrubs (s : State) : Bool :=
  (s.serving || (s.boot.mode == .starting && s.boot.crst && 10 ≤ s.boot.step && !s.fatal.inSeq)) &&
    s.avail (2 + s.stripes.row / 16384 % 4)

/-- Positions of a row that only reconstruction serves (R164, R166, R167). -/
def Stripe.missing (x : Stripe) (row : Nat) : Nat :=
  b2n (x.failed1 < 33 && x.rebuildRow ≤ row) + b2n (x.failed2 < 34 && x.mode = .degraded)

/-- Words that a row has lost: its uncorrectable words but those of failed banks, and the positions that only reconstruction serves, where they are
more than the one that can be rebuilt (R164). -/
def Stripe.lost (x : Stripe) (row : Nat) (r : RowRead) : Nat :=
  let ue := (r.words.filter fun w => w.2 == .uncorrectable && !x.gone w.1.toNat).length
  if 0 < ue && 2 ≤ ue + x.missing row then ue + x.missing row else 0

/-- An error that stands in a word of an array's row, as the scrub reads it. -/
def State.standing (s : State) (pla : Bool) (row : Nat) : Upset → Option (BitVec 6 × WordState)
  | .word p n w =>
    if p == pla && rowOf n.toNat == row then
      some (BitVec.ofNat 6 ((s.stripe pla).bankOf row (bankPos n.toNat)), w)
    else none
  | _ => none

/-- One array's part of a scrub step: every word is corrected, a row that has lost two words or more is the
array-uncorrectable class, a parity mismatch among clean words is the latent-parity class, counts in PMISS and has the
parity written from the data (R163, R164, R169). -/
def State.scrubArray (s : State) (pla : Bool) (r : RowRead) : State :=
  let row := s.stripes.row
  let r := { r with words := r.words ++ s.upsets.filterMap (s.standing pla row) }
  let s := { s with upsets := s.upsets.filter fun u => (s.standing pla row u).isNone }
  let k := (s.stripe pla).lost row r
  if k ≠ 0 then s.fail 0x07 none 6 (arrObj (b2n pla) (row % 33) row) k
  else
    let t := r.words.foldl (fun t w => (t.wordRead pla w.1.toNat row w.2).1) s
    if r.parityOk || r.words.any fun w => w.2 != .clean then t
    else
      ((t.onArr Arr.parityFresh).onStripes fun x => { x with pmiss := satInc 16 x.pmiss }).fail 0x08 none 6
        (arrObj (b2n pla) (row % 33) row) 0

/-- The scrub goes to the next row; a full pass counts and begins the failure counts of R165 again. -/
def State.scrubNext (s : State) : State :=
  s.onStripes fun x =>
    if x.row + 1 < 65536 then { x with row := x.row + 1 }
    else
      { x with row := 0, passes := (x.passes + 1) % 2 ^ 32,
               ssa := { x.ssa with ueRows := [], ceRows := [] },
               pla := { x.pla with ueRows := [], ceRows := [] } }

/-- A scrub step with what it reads. -/
def State.scrub (s : State) (ssa pla : RowRead) : State :=
  if s.scrubs then ((s.scrubArray false ssa).scrubArray true pla).scrubNext else s

/-- One row of the spare is written; with the last one the failed position is at bank 33. -/
def Stripe.rebuildStep (x : Stripe) : Stripe :=
  { x with rebuildRow := x.rebuildRow + 1,
           mode := if x.rebuildRow + 1 = 65536 && x.mode = .rebuilding then .spared else x.mode }

/-- A rebuild step of one array (R166). -/
def State.rebuild (s : State) (pla : Bool) : State :=
  if (s.stripe pla).rebuildRuns then
    let t := s.onStripe pla Stripe.rebuildStep
    if 65536 ≤ (t.stripe pla).rebuildRow then
      t.onBoot fun b => if pla then { b with sparePla := true } else { b with spareSsa := true }
    else t
  else s

/-! ### The Weir's copies (R179, R199 to R201) -/

/-- SAF_WEIR_ST.MODE code. -/
def WeirMode.code : WeirMode → Nat
  | .lockstep => 0 | .replay => 1 | .selftest => 2 | .fencedA => 3 | .fencedB => 4 | .failed => 5

/-- The in-field self-test ends: the copies that pass go on, a copy that fails is fenced, with none left the Weir
has FAILED. -/
def State.selftestEnd (s : State) (a b : Bool) : State :=
  if s.weir.mode ≠ .selftest then s
  else if a && b then s.onWeir fun w => { w with mode := .lockstep }
  else if a || b then
    let m : WeirMode := if a then .fencedB else .fencedA
    ((s.onWeir fun w => { w with mode := m }).onBoot fun x => { x with weirFenced := true }).fail 0x01 none 0 0 m.code
  else (s.onWeir fun w => { w with mode := .failed }).fail 0x02 none 0 0 0

/-- The shadow checker's verdict on an applied decision while one copy is fenced. -/
def State.shadow (s : State) (c : Nat) (agree : Bool) : State :=
  if (s.weir.mode = .fencedA || s.weir.mode = .fencedB) && !agree then
    (s.onWeir fun w => { w with shadowErr := satInc 16 w.shadowErr }).failCtx 0x03 c 0
  else s

/-- The link store has been derived again; the visits that waited can be made (R179). -/
def State.linkStoreDone (s : State) : State := s.onWeir fun w => { w with linkRebuild := false }

/-! ### Clocks and debug enables (R410, R428) -/

/-- Number of a clock in DETAIL of class 0x12. -/
def clockCode : ClockId → Nat
  | .sclk => 1 | .hclk => 2 | .aoclk => 3

/-- The clock monitor finds a clock stopped or off its frequency; HCLK may stop while every domain is DORMANT. -/
def State.clockFault (s : State) (c : ClockId) (stopped : Bool) : State :=
  if !s.boot.crst || (c = .hclk && s.blockState = 3) then s
  else s.fail 0x12 none 0 0 (clockCode c + 256 * b2n stopped)

/-- The debug enables take new values. An invasive one that rises after the sample grants nothing and is the DEBUG
class; the fall of DBG_IDEN_SEC ends a halt of the steward. -/
def State.debugChange (s : State) (en : BitVec 4) : State :=
  let rise := en &&& ~~~ s.straps.dbgNow
  let t := s.onStraps fun x => { x with dbgNow := en, dbgLive := x.dbgLive &&& en }
  if !s.boot.crst then t
  else
    let t := if bit t.straps.dbgLive 3 then t else t.onSaf fun x => { x with stwStop := false }
    if bit rise 3 || bit rise 1 then t.fail 0x15 none 0 0 en.toNat else t

/-! ### The steward's watchdog (R400) -/

/-- One second in ticks. -/
def oneSecond : Nat := 4000000000

/-- The steward runs: it has started, in a HALTED block too, and nothing halts it (R64, R400, R409). -/
def State.stewardRuns (s : State) : Bool :=
  s.boot.crst && s.mailServed && !s.saf.stwHalted && !s.saf.stwStop

/-- The watchdog expires: the first expiry restarts the steward, a second one within a second halts it, after a FATAL
reaction too (R64, R400, R437). -/
def State.watchdog (s : State) : State :=
  if !s.stewardRuns then s
  else
    let second := s.saf.lastWdt.any fun c => s.now.toNat ≤ c.toNat + oneSecond
    let t := s.stewardRestart.onSaf fun x =>
      { x with lastWdt := some s.now, stwHalted := second }
    t.fail 0x13 none 0 0 (if second then 2 else 1)

/-! ### The fatal dump (R402, R437 to R440) -/

/-- Bytes of the steward's section: what its firmware keeps, at most 1 MiB (R440). -/
def State.stewardLen (s : State) : Nat := Config.stewardBytes s.free % 1048577

/-- Bytes of a dump without the array sections: header, descriptors and the sections 0x01 to 0x09, each on a 4 KiB
boundary, then the steward's (R439, R440). -/
def State.dumpShort (s : State) : Nat := 749568 + s.stewardLen

/-- Bytes of a dump with them. -/
def State.dumpFull (s : State) : Nat :=
  749568 + (s.stewardLen + 4095) / 4096 * 4096 + 2 * 16777216 + 3244032 + 131072

/-- The array sections are included (R437). -/
def State.dumpsArrays (s : State) : Bool := s.fatal.arrays && s.dumpFull ≤ s.fatal.dumpLen && 1 ≤ s.lev.cur

/-- OUTCOME of the dump (R438). -/
def State.dumpOutcome (s : State) (m : MemEnd) : Nat :=
  let f := s.fatal
  if f.cls = 0x13 || s.saf.stwHalted || s.saf.stwStop then 5
  else if f.dumpLen = 0 then 2
  else if f.dumpLen < s.dumpShort then 3
  else if !m.ok then 4
  else if s.dumpsArrays then 0
  else 1

/-! ### Commands -/

/-- SCRUB_STEP (R169). -/
def execScrubStep (ssa pla : RowRead) (s : State) : Host.Outcome State Fault Refusal := .next (s.scrub ssa pla)

/-- REBUILD_STEP (R166). -/
def execRebuildStep (pla : Bool) (s : State) : Host.Outcome State Fault Refusal := .next (s.rebuild pla)

/-- WEIR_SELFTEST_END (R199). -/
def execWeirSelftestEnd (aPass bPass : Bool) (s : State) : Host.Outcome State Fault Refusal :=
  .next (s.selftestEnd aPass bPass)

/-- SHADOW_CHECK (R200). -/
def execShadowCheck (ctx : BitVec 10) (agree : Bool) (s : State) : Host.Outcome State Fault Refusal :=
  .next (s.shadow ctx.toNat agree)

/-- LINK_STORE_REBUILD_END (R179). -/
def execLinkStoreRebuildEnd (s : State) : Host.Outcome State Fault Refusal := .next s.linkStoreDone

/-- CLOCK_FAULT (R428). -/
def execClockFault (clk : ClockId) (stopped : Bool) (s : State) : Host.Outcome State Fault Refusal :=
  .next (s.clockFault clk stopped)

/-- DEBUG_ENABLE_CHANGE (R410). -/
def execDebugEnableChange (en : BitVec 4) (s : State) : Host.Outcome State Fault Refusal := .next (s.debugChange en)

/-- STEWARD_WATCHDOG_EXPIRY (R400). -/
def execStewardWatchdogExpiry (s : State) : Host.Outcome State Fault Refusal := .next s.watchdog

end Sys2Proof.Machine
end

