-- ==== Sys2Proof/Machine/Mailbox.lean ====
section
/-! DEFINITION. The steward mailbox: claim, release, commands and their replies (R113, R414, R451 to R453). -/

namespace Sys2Proof.Machine

/-! ### Bytes -/

/-- The little-endian word of up to 8 bytes. -/
def wordOfBytes (l : List (BitVec 8)) : BitVec 64 :=
  BitVec.ofNat 64 ((l.take 8).zipIdx.map fun p => p.1.toNat * 2 ^ (8 * p.2)).sum

/-- Bytes as the words of the data area. -/
def dataOfBytes (l : List (BitVec 8)) : SMap (BitVec 64) :=
  (List.range ((l.length + 7) / 8)).foldl (fun m i => SMap.set 0 m i (wordOfBytes (l.drop (8 * i)))) []

/-! ### Replies -/

/-- MODE code of GLB_BOOTST (R71). -/
def Mode.code : Mode → Nat
  | .starting => 0 | .ready => 1 | .safeMinimal => 2 | .halted => 3

/-- VERSION and GEN of the three images (R113). -/
def State.versionBytes (s : State) : List (BitVec 8) :=
  bytesLE 4 s.img.activeVer ++ natLE 4 s.img.activeGen ++ bytesLE 4 s.img.stwVer ++ natLE 4 s.img.stwGen ++
    bytesLE 4 s.img.laneVer ++ natLE 4 s.img.laneGen

/-- Reply of VERSIONS: 28 bytes. -/
def State.versionsReply (s : State) : List (BitVec 8) :=
  s.versionBytes ++ natLE 1 s.img.startFail ++ bytesLE 3 s.img.compatTest

/-- Digest of the image that is STAGED or COMMIT_PENDING, or zero. -/
def State.stagedDigest (s : State) : BitVec 384 :=
  match s.img.staged with
  | some m => if s.img.stage = .staged || s.img.stage = .commitPending then imageDigest m else 0
  | none => 0

/-- Bytes 0x000 to 0x11F of an attestation record (R113); the nonce is the first 32 bytes of the data area. -/
def State.attestBody (s : State) : List (BitVec 8) :=
  natLE 4 0x54535441 ++ natLE 2 1 ++ natLE 1 s.dev ++
    natLE 1 (s.straps.lcs + 128 * b2n (s.keys.root = 3)) ++ natLE 2 hwver ++ natLE 1 s.boot.mode.code ++ natLE 1 0 ++
    s.versionBytes ++ bytesLE 48 s.img.digest ++ bytesLE 48 s.img.stwDigest ++ bytesLE 48 s.img.laneDigest ++
    bytesLE 48 s.stagedDigest ++ natLE 4 s.img.epochs ++ bytesLE 8 s.now ++
    ((List.range 4).flatMap fun i => bytesLE 8 (SMap.get (0 : BitVec 64) s.mbx.data i)) ++ natLE 16 0

/-- A signature as its 96 bytes. -/
def sig96 (l : List (BitVec 8)) : List (BitVec 8) := l.take 96 ++ List.replicate (96 - l.length) 0

/-- Reply of ATTEST: 384 bytes, signed with slot 0. -/
def State.attestReply (s : State) : List (BitVec 8) :=
  s.attestBody ++ sig96 (Config.sign (s.slot 0).key s.attestBody)

/-- Reply of CERTS (R453). -/
def certsReply (e : MailEnv) : List (BitVec 8) :=
  natLE 2 e.devCert.length ++ natLE 2 e.caCert.length ++ e.devCert ++ e.caCert

/-- Reply of PROD_PUBKEY: the public key of the production root's identity. -/
def State.pubkeyReply (s : State) : List (BitVec 8) :=
  bytesBE 97 (Config.publicKey (Config.identityKey (s.straps.roots.getD 1 0)))

/-- ATTEST and PROD_PUBKEY are refused in SAFE_MINIMAL and HALTED, PROD_PUBKEY outside the secure world and
MANUFACTURE (R453). -/
def State.mailRefused (s : State) : Bool :=
  let low := s.boot.mode = .safeMinimal || s.boot.mode = .halted
  (s.mbx.cmd = 2 && low) || (s.mbx.cmd = 4 && (low || !s.mbx.owner || s.straps.lcs ≠ 0))

/-- STATUS of the running command. -/
def State.mailStatus (s : State) : Nat :=
  if s.saf.stwHalted then 5
  else if s.mbx.cmd = 0 || 4 < s.mbx.cmd then 1
  else if s.mailRefused then 2
  else if s.mbx.cmd = 2 && (s.mbx.unusable || !s.usable 0) then 3
  else 0

/-- The reply of the running command. -/
def State.mailReply (s : State) (e : MailEnv) : List (BitVec 8) :=
  match s.mbx.cmd with
  | 1 => s.versionsReply
  | 2 => s.attestReply
  | 3 => certsReply e
  | _ => s.pubkeyReply

/-! ### Claim, command, release (R452) -/

/-- A CLAIM; false is FAULT. -/
def State.mailClaim (s : State) (world : Bool) : State × Bool :=
  if s.mbx.owned || s.mbx.busy then (s, false)
  else (s.onMbx fun m => { m with owned := true, owner := world, data := [] }, true)

/-- A RELEASE: from the owner's world or the secure one; another one is not accepted. -/
def State.mailRelease (s : State) (world : Bool) : State × Bool :=
  if !s.mbx.owned then (s, true)
  else if world || !s.mbx.owner then (s.onMbx fun m => { m with owned := false }, true)
  else (s, false)

/-- A write of STW_MB_OWN. -/
def State.mailOwn (s : State) (world : Bool) (v : BitVec 64) : State × Bool :=
  let r := if bit v 1 then s.mailRelease world else (s, true)
  if bit v 0 then
    let c := r.1.mailClaim world
    (c.1, r.2 && c.2)
  else r

/-- A write of STW_MB_CMD. -/
def State.mailCmd (s : State) (world : Bool) (cmd : Nat) : State × Bool :=
  if s.mbx.owned && s.mbx.owner == world && !s.mbx.busy then
    (s.onMbx fun m => { m with busy := true, cmd := cmd, unusable := false }, true)
  else (s, false)

/-- An access to the data area is accepted. -/
def State.mailData (s : State) (world : Bool) : Bool := s.mbx.owned && s.mbx.owner == world && !s.mbx.busy

/-- The running command ends: reply, STATUS and RLEN, then BUSY clears; a released mailbox takes no reply. A steward
halted by a debugger ends none (R409). -/
def State.mailEnd (s : State) (e : MailEnv) : State :=
  if !s.mbx.busy || s.saf.stwStop || !s.mailServed then s
  else
    let st := s.mailStatus
    let reply := if st = 0 && s.mbx.owned then (s.mailReply e).take 3840 else []
    s.onMbx fun m =>
      { m with busy := false, status := st, rlen := reply.length,
               data := if m.owned && st = 0 then dataOfBytes reply else m.data }

/-- MAILBOX_COMMAND_END (R452). -/
def execMailboxCommandEnd (e : MailEnv) (s : State) : Host.Outcome State Fault Refusal := .next (s.mailEnd e)

end Sys2Proof.Machine
end

