-- ==== Sys2Proof/Machine/RegBase.lean ====
section
/-!
DEFINITION. The register port before any register: parts of a word, the register index, banks, reach, the domain of
each register, decoding of an address (R13 to R19, R441 to R450).
-/

namespace Sys2Proof.Machine

/-! ### Parts of a word (R3, R17) -/

/-- The part includes bits [31:0]. -/
def hasLo : Part → Bool
  | .hi => false
  | _ => true

/-- The part includes bits [63:32]. -/
def hasHi : Part → Bool
  | .lo => false
  | _ => true

/-- Bits of a part, the other half zero. -/
def partBits (p : Part) (v : BitVec 64) : BitVec 64 :=
  match p with
  | .full => v
  | .lo => v &&& 0x00000000FFFFFFFF
  | .hi => v &&& 0xFFFFFFFF00000000

/-- A register after a write of a part of it. -/
def mergePart (p : Part) (old v : BitVec 64) : BitVec 64 :=
  match p with
  | .full => v
  | .lo => partBits .hi old ||| partBits .lo v
  | .hi => partBits .lo old ||| partBits .hi v

/-! ### The register index (R450) -/

/-- Registers of one slot each, with whether they are 64 bits wide. -/
abbrev SlotTable := List (Nat × Reg × Bool)

def globalSlots : SlotTable :=
  [(0x0000, .glbHwver, false), (0x0008, .glbBootst, false), (0x0010, .glbBootlogSel, false),
   (0x0018, .glbBootlog, false), (0x0020, .glbImgst, true), (0x0028, .glbImgStageAddr, true),
   (0x0030, .glbImgStageLen, false), (0x0038, .glbEpochCtl, false), (0x0040, .glbEpochAt, true),
   (0x0048, .glbEpochLast, true), (0x0080, .glbCflSt, true), (0x0088, .glbCflLastref, true),
   (0x00A8, .glbWheelSt, true), (0x00B0, .glbSmapIdx, false), (0x00B8, .glbSmapData, true),
   (0x00C0, .glbSmapLookup, true), (0x00C8, .glbDumpAddr, true), (0x00D0, .glbDumpLen, false),
   (0x00D8, .glbDumpCtl, false)] ++
  (List.range 6).map (fun n => (0x0050 + 8 * n, .glbStructDigest n, true)) ++
  (List.range 3).map fun n => (0x0090 + 8 * n, .glbCflRefCnt n, true)

def selectSlots : SlotTable :=
  [(0x1000, .selSrc, false), (0x1008, .selTgt, false), (0x1010, .selSlc, false), (0x1018, .selLane, false),
   (0x1020, .selCnt, true)]

def targetSlots : SlotTable :=
  [(0x2000, .tgtVbase, true), (0x2008, .tgtDlvCfg, false), (0x2010, .tgtCtl, false), (0x2018, .tgtRun, true),
   (0x2020, .tgtPres, true), (0x2028, .tgtStkIdx, false), (0x2030, .tgtStkData, true),
   (0x2038, .tgtDlvCnt 0, true), (0x2040, .tgtDlvCnt 1, true), (0x2048, .tgtDlvCnt 2, true),
   (0x2050, .tgtGrpCfg, true), (0x2058, .tgtGrpSt, true), (0x2060, .tgtGrpMidx, false),
   (0x2068, .tgtGrpMdata, false), (0x2070, .tgtGrpMember, false)]

def sourceSlots : SlotTable :=
  [(0x3000, .srcCfg, true), (0x3008, .srcEn, false), (0x3010, .srcFire, false), (0x3018, .srcLine, false),
   (0x3020, .srcWcnt, false)]

def sliceSlots : SlotTable :=
  [(0x4000, .slcCtl, false), (0x4008, .slcSt, true), (0x4010, .slcInfo, true), (0x4018, .slcShare, true),
   (0x4020, .slcShareLive, true), (0x4028, .slcCommit, false), (0x4030, .slcSpill, true),
   (0x4038, .slcLogBase, true), (0x4040, .slcLogHead, true), (0x4048, .slcLogSt, true), (0x4050, .slcCplCnt, true),
   (0x4058, .slcMergedCnt, false), (0x4060, .slcWdrawnCnt, false), (0x4068, .slcDlCnt, true),
   (0x4070, .slcDlLast, true), (0x4078, .slcXferAddr, true), (0x4080, .slcXferLen, false),
   (0x4088, .slcXferSt, true), (0x40B0, .slcErrIdx, false), (0x40B8, .slcErrData 0, true),
   (0x40C0, .slcErrData 1, true)] ++
  (List.range 4).map fun n => (0x4090 + 8 * n, .slcRefCnt n, true)

def linkSlots : SlotTable :=
  [(0x5000, .lnkLaneCfg, false), (0x5008, .lnkLoop, false), (0x5010, .lnkPrbsCtl, false), (0x5018, .lnkApply, false),
   (0x5020, .lnkLaneSt, true), (0x5028, .lnkLaneCnt, true), (0x5030, .lnkPrbsSt, true), (0x5038, .lnkPrbsBits, true),
   (0x5040, .lnkPortSt, true), (0x5048, .lnkPortCnt 0, true), (0x5050, .lnkPortCnt 1, true),
   (0x5058, .lnkInjCtl, false), (0x5060, .lnkCasSt, true), (0x5068, .lnkInjEn, false)]

def powerSlots : SlotTable :=
  [(0x6000, .pwrPlCtl, false), (0x6008, .pwrPlFloor, false), (0x6010, .pwrPlSt, false), (0x6018, .pwrSleepCtl, true),
   (0x6020, .pwrSleepSt, false), (0x6028, .pwrDomSt, true), (0x6030, .pwrHold, false), (0x6038, .pwrHoldSet, false),
   (0x6040, .pwrEddy, true), (0x6048, .pwrSt, false), (0x6050, .pwrCnt, true), (0x6058, .pwrAgeSt, true)] ++
  (List.range 4).map fun n => (0x6060 + 8 * n, .pwrLvl n, true)

def safetySlots : SlotTable :=
  [(0x7000, .safSsaSt, true), (0x7008, .safPlaSt, true), (0x7010, .safScrubSt, true), (0x7018, .safWeirSt, true),
   (0x7020, .safDlvErr, true), (0x7028, .safSig, false), (0x7030, .safTmr, false), (0x7038, .safLogHead, false),
   (0x7040, .safLogTail, false), (0x7048, .safLogIdx, false), (0x7050, .safLogData 0, true),
   (0x7058, .safLogData 1, true), (0x7060, .safLogSt, true), (0x7068, .safClsIdx, false), (0x7070, .safClsCnt, false)]

def timebaseSlots : SlotTable :=
  [(0x8000, .tbCount, true), (0x8008, .tbSt, true)] ++
  (List.range 4).map (fun p => (0x8010 + 8 * p, .tbDly p, true)) ++
  (List.range 4).map fun p => (0x8030 + 8 * p, .tbAsym p, false)

def mailboxSlots : SlotTable :=
  [(0x9000, .stwMbSt, true), (0x9008, .stwMbOwn, false), (0x9010, .stwMbCmd, false)]

def keySlots : SlotTable :=
  (List.range 16).map (fun n => (0xA000 + 16 * n, .keySlotSt n, true)) ++
  (List.range 16).map (fun n => (0xA008 + 16 * n, .keySlotPgen n, false)) ++ [(0xA100, .keyRootSt, false)]

/-- The slots of a window, by the window's number (R441). -/
def windowSlots (w : Nat) : SlotTable :=
  match w with
  | 0 => globalSlots | 1 => selectSlots | 2 => targetSlots | 3 => sourceSlots | 4 => sliceSlots | 5 => linkSlots
  | 6 => powerSlots | 7 => safetySlots | 8 => timebaseSlots | 9 => mailboxSlots | 10 => keySlots
  | _ => []

/-- The register of an 8-byte slot. -/
def slotReg (o : Nat) : Option (Reg × Bool) :=
  if 0x9100 ≤ o && o ≤ 0x9FF8 then some (.stwMbData ((o - 0x9100) / 8), true)
  else ((windowSlots (o / 4096)).find? fun p => p.1 == o).map Prod.snd

/-- Registers of a native slice page (R449). -/
def pageSlots : SlotTable :=
  [(0x00, .selSrc, false), (0x04, .srcEn, false), (0x08, .selTgt, false), (0x0C, .srcFire, false),
   (0x10, .selSlc, false), (0x14, .slcCtl, false), (0x18, .selCnt, true), (0x20, .srcCfg, true),
   (0x28, .srcLine, false), (0x2C, .tgtDlvCfg, false), (0x30, .tgtVbase, true), (0x38, .tgtRun, true),
   (0x40, .tgtPres, true), (0x48, .tgtStkData, true), (0x50, .tgtDlvCnt 0, true), (0x58, .tgtDlvCnt 1, true),
   (0x60, .tgtDlvCnt 2, true), (0x68, .tgtGrpCfg, true), (0x70, .tgtGrpSt, true), (0x78, .tgtCtl, false),
   (0x7C, .tgtStkIdx, false)] ++
  [(0x80, .tgtGrpMidx, false), (0x84, .tgtGrpMdata, false), (0x88, .tgtGrpMember, false), (0x8C, .slcMergedCnt, false),
   (0x90, .slcWdrawnCnt, false), (0x94, .slcErrIdx, false), (0x98, .slcSt, true), (0xA0, .slcSpill, true),
   (0xA8, .slcLogBase, true), (0xB0, .slcLogHead, true), (0xB8, .slcLogSt, true), (0xC0, .slcCplCnt, true),
   (0xC8, .slcDlCnt, true), (0xD0, .slcDlLast, true), (0xD8, .slcRefCnt 1, true), (0xE0, .slcRefCnt 2, true),
   (0xE8, .slcRefCnt 3, true), (0xF0, .slcErrData 0, true), (0xF8, .slcErrData 1, true)]

/-- A register of the global window (R64, R67). -/
def isGlobal : Reg → Bool
  | .glbHwver | .glbBootst | .glbBootlogSel | .glbBootlog | .glbImgst | .glbImgStageAddr | .glbImgStageLen
  | .glbEpochCtl | .glbEpochAt | .glbEpochLast | .glbStructDigest _ | .glbCflSt | .glbCflLastref | .glbCflRefCnt _
  | .glbWheelSt | .glbSmapIdx | .glbSmapData | .glbSmapLookup | .glbDumpAddr | .glbDumpLen | .glbDumpCtl => true
  | _ => false

/-- A register of the mailbox window. -/
def isMailbox : Reg → Bool
  | .stwMbSt | .stwMbOwn | .stwMbCmd | .stwMbData _ => true
  | _ => false

/-! ### Decoding (R16, R17, R442) -/

/-- Size, alignment and strobes of an access, read or write. -/
def rawOk (q : RawReq) : Bool :=
  let a := q.addr.toNat
  if q.size = 3 then a % 8 == 0 && q.strb == 0xFF
  else q.size = 2 && a % 4 == 0 && q.strb == (if a % 8 = 4 then 0xF0 else 0x0F)

/-- The hit of a 64-bit access, or of one half, of a 64-bit register. -/
def hit64 (r : Reg) (size : BitVec 2) (high : Bool) (d : BitVec 64) : Hit :=
  let p : Part := if size = 3 then .full else if high then .hi else .lo
  { reg := r, part := p, data := partBits p d, shift := 0 }

/-- The hit of a 32-bit register at a slot offset, or at the slot offset + 4 of a page. -/
def hit32 (r : Reg) (high : Bool) (d : BitVec 64) : Hit :=
  { reg := r, part := .full, data := if high then d >>> 32 else partBits .lo d, shift := if high then 32 else 0 }

/-- Registers an access outside the pages reaches. -/
def flatHits (a : Nat) (size : BitVec 2) (d : BitVec 64) : List Hit :=
  match slotReg (a / 8 * 8) with
  | some (r, true) => [hit64 r size (a % 8 = 4) d]
  | some (r, false) => if a % 8 = 4 then [] else [hit32 r false d]
  | none => []

/-- Registers an access within a page reaches. -/
def pageHits (o : Nat) (size : BitVec 2) (d : BitVec 64) : List Hit :=
  let base := o / 8 * 8
  let at_ (k : Nat) : Option (Reg × Bool) := (pageSlots.find? fun p => p.1 == k).map Prod.snd
  match at_ base with
  | some (r, true) => [hit64 r size (o % 8 = 4) d]
  | lower =>
    let l := match lower with
      | some (r, _) => [hit32 r false d]
      | none => []
    let h := match at_ (base + 4) with
      | some (r, _) => [hit32 r true d]
      | none => []
    if size = 3 then l ++ h else if o % 8 = 4 then h else l

/-- The access of a raw request that keeps R16. -/
def accOf (q : RawReq) (write : Bool) : Acc :=
  let a := q.addr.toNat
  let page := if 0x10000 ≤ a then some ((a - 0x10000) / 256 + 1) else none
  { write := write, low := a / 4096 = 0 || a / 4096 = 9, mail := a / 4096 = 9, world := q.world, pid := q.pid, tag := q.tag, page := page,
    hits := match page with
      | some _ => pageHits (a % 256) q.size q.data
      | none => flatHits a q.size q.data }

/-- The access of a register command. -/
def accReg (write : Bool) (o : RegOp) (r : Reg) (p : Part) (v : BitVec 64) : Acc :=
  { write := write, low := isGlobal r || isMailbox r, mail := isMailbox r, world := o.world, pid := o.pid, tag := o.tag,
    page := o.page.map BitVec.toNat,
    hits := [{ reg := r, part := p, data := partBits p v, shift := 0 }] }

/-! ### Banks (R446) -/

/-- The bank an access uses. -/
def State.bank (s : State) (a : Acc) : Bank :=
  match a.page with
  | some i => SMap.get {} s.reg.pages i
  | none => if a.world then s.reg.sec else s.reg.nor

/-- Change the bank an access uses. -/
def State.onBank (s : State) (a : Acc) (f : Bank → Bank) : State :=
  s.onReg fun r =>
    match a.page with
    | some i => { r with pages := SMap.upd {} r.pages i f }
    | none => if a.world then { r with sec := f r.sec } else { r with nor := f r.nor }

/-- Count a refused commit or write. -/
def State.countRefused (s : State) (a : Acc) : State :=
  s.onBank a fun b => { b with refused := satInc 16 b.refused }

/-- Count an ignored write. -/
def State.countIgnored (s : State) (a : Acc) : State :=
  s.onBank a fun b => { b with ignored := satInc 16 b.ignored }

/-- Count an SRC_FIRE that ends in FAULT. -/
def State.countFireFault (s : State) (a : Acc) : State :=
  s.onBank a fun b => { b with fireFlt := satInc 16 b.fireFlt }

/-! ### Reach (R154, R203, R273) -/

/-- The global number of the selected source, where the bank reaches it; a source that has lost its slice is in no pool
(R154, R469). -/
def State.reachSrc (s : State) (a : Acc) : Option Nat :=
  let n := (s.bank a).selSrc
  match a.page with
  | some i =>
    let m := unitFirst (s.slc i).info.extFirst + n
    if n < (s.slc i).poolSize && s.inPool i m then some m else none
  | none =>
    if a.world then some n
    else if !(s.entry n).world && (!isMsg n || (s.sourceSlice n).isSome) then some n else none

/-- The selected context, where the bank reaches it. -/
def State.reachCtx (s : State) (a : Acc) : Option Nat :=
  let c := (s.bank a).selTgt
  if 1024 ≤ c then none
  else
    match a.page with
    | some i => if (s.ctx c).inUse && (s.ctx c).slice == i then some c else none
    | none => if a.world || !ctxWorld c then some c else none

/-- The selected group, where it has a record and the bank reaches it. -/
def State.reachGrp (s : State) (a : Acc) : Option Nat :=
  let c := (s.bank a).selTgt
  if c < 1024 || 1536 ≤ c || !(s.grp (c - 1024)).defined then none
  else
    let g := c - 1024
    match a.page with
    | some i => if (s.grp g).slice == i then some g else none
    | none => if a.world || !(s.grp g).world then some g else none

/-- The selected slice, where the bank reaches it for a read or a write. -/
def State.reachSlc (s : State) (a : Acc) : Option Nat :=
  match a.page with
  | some i => some i
  | none =>
    let i := (s.bank a).selSlc
    if a.world then some i
    else if (s.slc i).info.world then none
    else if a.write && !s.isManager false a.pid then none
    else some i

/-- The selected physical lane and its port. -/
def State.selLaneOf (s : State) (a : Acc) : Nat := (s.bank a).selLane

def State.selPortOf (s : State) (a : Acc) : Nat := (s.bank a).selLane / 4

/-! ### Worlds and domains of the registers (R444, R445) -/

/-- World column codes. -/
inductive WCode where
  | both
  | secure
  | secureWrite
  | reach
  | reachMgr
  deriving DecidableEq, Repr

/-- World column of a register. -/
def worldOf : Reg → WCode
  | .glbImgStageAddr | .glbImgStageLen | .glbEpochCtl | .glbEpochAt | .glbCflLastref | .glbSmapIdx | .glbSmapData
  | .glbSmapLookup | .glbDumpAddr | .glbDumpLen | .glbDumpCtl | .safLogHead | .safLogTail | .safLogIdx
  | .safLogData _ | .safLogSt | .safClsIdx | .safClsCnt | .keySlotSt _ | .keySlotPgen _ | .keyRootSt => .secure
  | .lnkLaneCfg | .lnkLoop | .lnkPrbsCtl | .lnkApply | .lnkLaneSt | .lnkLaneCnt | .lnkPrbsSt | .lnkPrbsBits
  | .lnkPortSt | .lnkPortCnt _ | .lnkInjCtl | .lnkCasSt | .lnkInjEn | .pwrPlFloor | .pwrHold | .pwrHoldSet
  | .safSig | .safTmr | .tbSt | .tbAsym _ => .secureWrite
  | .slcShare | .slcCommit | .slcXferAddr | .slcXferLen | .slcXferSt => .reachMgr
  | .tgtVbase | .tgtDlvCfg | .tgtCtl | .tgtRun | .tgtPres | .tgtStkIdx | .tgtStkData | .tgtDlvCnt _ | .tgtGrpCfg
  | .tgtGrpSt | .tgtGrpMidx | .tgtGrpMdata | .tgtGrpMember | .srcCfg | .srcEn | .srcFire | .srcLine | .srcWcnt
  | .slcCtl | .slcSt | .slcInfo | .slcShareLive | .slcSpill | .slcLogBase | .slcLogHead | .slcLogSt | .slcCplCnt
  | .slcMergedCnt | .slcWdrawnCnt | .slcDlCnt | .slcDlLast | .slcRefCnt _ | .slcErrIdx | .slcErrData _ => .reach
  | _ => .both

/-- Whether the World column accepts an access; the reach of a bank is checked by the register (R445). -/
def State.worldAccepts (s : State) (a : Acc) (r : Reg) : Bool :=
  match worldOf r with
  | .secure => a.world
  | .secureWrite => a.world || !a.write
  | .reachMgr => !a.write || s.isManager a.world a.pid
  | _ => true

/-- Domains an access to a register needs; a selected object out of reach needs none. -/
def State.regDoms (s : State) (a : Acc) : Reg → List Nat
  | .tgtVbase | .tgtDlvCfg | .tgtPres | .tgtStkIdx | .tgtStkData | .tgtDlvCnt _ =>
    ((s.reachCtx a).map fun c => dDLV (ctxPort c)).toList
  | .tgtCtl | .tgtRun => ((s.reachCtx a).map fun _ => dWEIR).toList
  | .tgtGrpCfg | .tgtGrpSt | .tgtGrpMidx | .tgtGrpMdata | .tgtGrpMember => ((s.reachGrp a).map fun _ => dWEIR).toList
  | .srcCfg | .srcEn => ((s.reachSrc a).map dARR).toList
  | .srcFire => [dCFL]
  | .srcLine | .srcWcnt => [dTB]
  | .slcDlCnt | .slcDlLast => [dWEIR]
  | .slcErrIdx | .slcErrData _ => []
  | .slcCtl | .slcSt | .slcInfo | .slcShare | .slcShareLive | .slcCommit | .slcSpill | .slcLogBase | .slcLogHead
  | .slcLogSt | .slcCplCnt | .slcMergedCnt | .slcWdrawnCnt | .slcXferAddr | .slcXferLen | .slcXferSt
  | .slcRefCnt _ => [dCFL]
  | .lnkCasSt | .lnkInjEn => []
  | .lnkLaneCfg | .lnkLoop | .lnkPrbsCtl | .lnkApply | .lnkLaneSt | .lnkLaneCnt | .lnkPrbsSt | .lnkPrbsBits
  | .lnkPortSt | .lnkPortCnt _ | .lnkInjCtl => [dLNK (s.selPortOf a)]
  | .tbCount | .tbSt | .tbDly _ | .tbAsym _ => [dTB]
  | .stwMbSt | .stwMbOwn | .stwMbCmd | .stwMbData _ | .keySlotSt _ | .keySlotPgen _ | .keyRootSt => [dSTW]
  | _ => []

end Sys2Proof.Machine
end

