-- ==== Sys2Proof/Machine/RegRead.lean ====
section
/-!
DEFINITION. What each register reads as, and what its read clears (R2, R3, R71, R72, R106, R120, R128, R131, R137,
R155, R170, R171, R174, R195, R196, R201, R206 to R209, R216, R222, R231, R244, R249, R250, R268 to R272, R280, R284,
R295, R327 to R330, R368 to R371, R375, R385, R389, R395, R400, R401, R424, R425, R430 to R433, R436, R451).
-/

namespace Sys2Proof.Machine

/-! ### Codes -/

/-- STAGE code of GLB_IMGST. -/
def StageSt.code : StageSt → Nat
  | .none => 0 | .fetching => 1 | .verifying => 2 | .staged => 3 | .commitPending => 4 | .refused => 5

/-- STATE code of SLC_ST. -/
def SlcState.code : SlcState → Nat
  | .unassigned => 0 | .active => 1 | .quiescing => 2 | .quiesced => 3 | .frozen => 4 | .restoring => 5

/-- STAGE code of TGT_PRES. -/
def PStage.code : PStage → Nat
  | .queued => 0 | .open_ => 1 | .revoking => 2 | .withdrawn => 3 | .held => 4

/-- STATE code of LNK_LANE_ST. -/
def LaneState.code : LaneState → Nat
  | .disabled => 0 | .detect => 1 | .training => 2 | .inService => 3 | .out => 4 | .retraining => 5 | .idle => 6
  | .test => 7 | .failed => 8

/-- STATE code of LNK_PORT_ST. -/
def PortState.code : PortState → Nat
  | .disabled => 0 | .down => 1 | .training => 2 | .auth => 3 | .up => 4 | .quarantined => 5

/-- MODE code of SAF_SSA_ST. -/
def StripeMode.code : StripeMode → Nat
  | .normal => 0 | .rebuilding => 1 | .spared => 2 | .degraded => 3

/-- A bit vector as a register word. -/
def w64 {n : Nat} (v : BitVec n) : BitVec 64 := v.setWidth 64

/-- A number as a register word. -/
def n64 (n : Nat) : BitVec 64 := BitVec.ofNat 64 n

/-! ### Global window -/

/-- GLB_BOOTST (R71). -/
def State.bootst (s : State) : BitVec 64 :=
  let b := s.boot
  let down := ((List.range 4).map fun p => if (s.lport p).state = .down then 2 ^ p else 0).sum
  pack [(30, 2, b.mode.code), (25, 1, b2n b.plHeld), (24, 1, b2n b.timeUnaligned), (23, 1, b2n b.weirFenced),
        (22, 1, b2n b.spareSsa), (21, 1, b2n b.sparePla), (17, 4, down), (16, 1, b2n b.warm), (12, 4, b.exit),
        (5, 3, b.cause), (0, 5, b.step)]

/-- A boot log entry (R72). -/
def LogEntry.word (e : LogEntry) : BitVec 64 := pack [(27, 5, e.step), (23, 4, e.outcome), (0, 23, e.time)]

/-- GLB_IMGST. -/
def State.imgst (s : State) : BitVec 64 :=
  pack [(61, 3, s.img.stage.code), (48, 8, s.img.fail), (32, 16, s.img.epochs), (0, 32, s.img.activeGen)]

/-- GLB_CFL_ST. -/
def State.cflSt (s : State) : BitVec 64 :=
  pack [(32, 14, s.cfl.peak), (31, 1, b2n s.winFull), (30, 1, b2n (256 ≤ s.expUsed)), (16, 9, s.expUsed),
        (0, 13, s.ordUsed)]

/-- GLB_CFL_LASTREF. -/
def LastRef.word (r : LastRef) : BitVec 64 :=
  pack [(60, 4, r.cause), (58, 2, r.port.toNat), (57, 1, b2n r.world), (56, 1, b2n r.valid), (32, 20, r.pid.toNat),
        (0, 24, r.addr.toNat)]

/-- GLB_CFL_REF_CNTn: high and low counter. -/
def RefCnt.pair (r : RefCnt) (n : Nat) : Nat × Nat :=
  match n with
  | 0 => (r.format, r.noSlice)
  | 1 => (r.world, r.outOfPool)
  | _ => (r.notReady, r.closed)

/-- Two 32-bit counters. -/
def pairWord (p : Nat × Nat) : BitVec 64 := pack [(32, 32, p.1), (0, 32, p.2)]

/-- GLB_WHEEL_ST. -/
def State.wheelSt (s : State) : BitVec 64 :=
  pack [(63, 1, b2n s.weir.linkRebuild), (32, 22, s.backlog), (0, 32, s.weir.lateMax)]

/-- GLB_SMAP_DATA. -/
def State.smapData (s : State) : BitVec 64 :=
  let r := recAt s.img.active.smap s.reg.smapIdx
  pack [(32, 1, b2n (smapValid r)), (20, 12, smapSlice r), (0, 20, smapPid r)]

/-- GLB_SMAP_LOOKUP. -/
def State.smapLook (s : State) : BitVec 64 :=
  let r := s.reg
  pack [(33, 12, r.lookIdx), (32, 1, b2n r.lookHit), (20, 12, r.lookSlc), (0, 20, r.lookPid.toNat)]

/-! ### Target context window -/

/-- SOURCE with GLOBAL as a bank sees it (R231): bit 21 and the number. -/
def State.seenSrc (s : State) (a : Acc) (n : Nat) : Nat :=
  match a.page with
  | some i => if s.inPool i n then n - unitFirst (s.slc i).info.extFirst else 2 ^ 21 + n
  | none => 2 ^ 21 + n

/-- TGT_RUN (R209). -/
def State.tgtRun (s : State) (c : Nat) : BitVec 64 :=
  let x := s.ctx c
  let p := s.port (ctxPort c)
  pack [(31, 1, b2n x.inUse), (30, 1, b2n p.inReset), (29, 1, b2n (bit p.awake (ctxHart c))),
        (17, 9, (x.pres.map Pres.rank).getD 0x1FF), (8, 9, x.runRank), (0, 5, x.stack.length)]

/-- TGT_PRES (R231). -/
def State.tgtPres (s : State) (a : Acc) (c : Nat) : BitVec 64 :=
  match (s.ctx c).pres with
  | some p => pack [(63, 1, 1), (60, 3, p.stage.code), (51, 9, p.rank), (39, 12, p.tag), (0, 22, s.seenSrc a p.src)]
  | none => 0

/-- Entry `i` of a stack in the format of TGT_STK_DATA (R231). -/
def State.stkWord (s : State) (a : Acc) (c i : Nat) : BitVec 64 :=
  match (s.ctx c).stack[i]? with
  | some e => pack [(63, 1, 1), (62, 1, b2n e.void), (53, 9, e.rank), (41, 12, e.tag), (0, 22, s.seenSrc a e.src)]
  | none => 0

/-- TGT_DLV_CFG (R244). -/
def Ctx.dlvCfg (x : Ctx) : BitVec 64 := pack [(16, 10, x.ptmo), (0, 12, x.dhold)]

/-- TGT_DLV_CNTn (R249). -/
def DlvCnt.word (k : DlvCnt) (n : Nat) : BitVec 64 :=
  match n with
  | 0 => k.w0
  | 1 => k.w1
  | _ => k.w2

/-- TGT_GRP_CFG (R206). -/
def Grp.cfg (g : Grp) : BitVec 64 :=
  pack [(36, 12, g.slice), (35, 1, b2n g.world), (34, 1, b2n g.cascadeWide), (33, 1, b2n g.preferAwake),
        (24, 7, g.limit), (16, 7, g.members.length), (0, 6, g.rrptr)]

/-- TGT_GRP_ST (R216). -/
def Grp.st (g : Grp) : BitVec 64 :=
  pack [(32, 32, g.emptyCnt), (19, 1, b2n g.empty), (16, 3, g.lastop), (0, 16, g.mchg)]

/-- TGT_GRP_MDATA (R207). -/
def Grp.mdata (g : Grp) (i : Nat) : BitVec 64 :=
  match g.members[i]? with
  | some m => pack [(31, 1, 1), (0, 13, m.toNat)]
  | none => 0

/-! ### Source and slice windows -/

/-- SRC_LINE (R120); zero for a source without a pin. -/
def State.srcLine (s : State) (n : Nat) : BitVec 64 :=
  if isPin n then
    let p := (s.line n).pin
    pack [(1, 1, b2n p), (0, 1, b2n (s.asserted n p))]
  else 0

/-- SLC_ST (R280). -/
def State.slcStWord (s : State) (i : Nat) : BitVec 64 :=
  let x := s.slc i
  pack [(61, 3, x.state.code), (60, 1, b2n x.clean), (59, 1, b2n x.pend.isSome), (58, 1, b2n (x.xfer != .none)),
        (48, 4, x.lastcmd), (40, 8, x.result), (0, 14, s.inflight i)]

/-- SLC_INFO (R280). -/
def State.slcInfoWord (s : State) (i : Nat) : BitVec 64 :=
  let x := (s.slc i).info
  pack [(63, 1, b2n x.mediated), (62, 1, b2n x.world), (61, 1, b2n x.windowed), (60, 1, b2n x.strayRaise),
        (56, 4, x.profile), (48, 8, x.ceiling), (36, 12, x.extFirst), (24, 12, x.extUnits),
        (10, 11, (s.ctxsOf i).length), (0, 10, (s.grpsOf i).length)]

/-- SLC_SPILL (R137). -/
def State.slcSpillWord (s : State) (i : Nat) : BitVec 64 :=
  pack [(32, 16, (s.slc i).hwm), (16, 14, (s.slc i).spillPeak), (0, 14, s.occ i)]

/-- SLC_LOG_BASE (R174): a base that waits for the buffered entries reads as written. -/
def SlcLog.base (l : SlcLog) : BitVec 64 :=
  match l.newBase with
  | some v => v
  | none => w64 l.addr ||| n64 (b2n l.en)

/-- SLC_LOG_HEAD (R174). -/
def SlcLog.head (l : SlcLog) : BitVec 64 := pack [(32, 1, b2n l.lap), (0, 32, l.next)]

/-- SLC_LOG_ST (R174). -/
def SlcLog.st (l : SlcLog) : BitVec 64 := pack [(63, 1, b2n l.fault), (0, 32, l.dropped)]

/-- SLC_DL_LAST (R196). -/
def DlLast.word (d : DlLast) : BitVec 64 :=
  pack [(32, 32, d.tick.toNat), (31, 1, b2n d.valid), (21, 1, b2n d.global), (0, 21, d.src)]

/-- SLC_XFER_ST (R295). -/
def Slc.xferSt (x : Slc) : BitVec 64 := pack [(32, 32, x.xferBytes), (16, 16, x.frozenMsg), (0, 16, x.purged)]

/-- SLC_REF_CNTn (R432): high and low counter. -/
def SlcCnt.refPair (c : SlcCnt) (n : Nat) : Nat × Nat :=
  match n with
  | 0 => (0, c.noSlice)
  | 1 => (c.pageMis, c.world)
  | 2 => (c.closed, c.outOfPool)
  | _ => (0, c.emptyRng)

/-- Class `k` is visible to a slice by its profile (R96). -/
def State.profileBit (s : State) (i k : Nat) : Bool := bit (recAt s.img.active.profiles (s.slc i).info.profile) k

/-- A record of the ring as a bank's view shows it (R431). The model's choice: a profile's bit hides the records of a
self-source's class ("receive its self-source reports", R96) and does not gate the raise or its presentation (DESIGN
CHOICE, assumption log entry 66). -/
def State.errView (s : State) (a : Acc) : BitVec 64 × BitVec 64 :=
  let r := SMap.get (0, 0) s.saf.log (s.bank a).errIdx
  let sl := fld r.2 43 12
  let sees := bit r.2 55 && match a.page with
    | some i => sl == i && s.profileBit i (fld r.2 58 6)
    | none => a.world || !(s.slc sl).info.world
  if sees then r else (0, 0)

/-! ### Link and lane window -/

/-- LNK_LANE_CFG, LNK_LOOP and LNK_PRBS_CTL read the settings in force. -/
def Lane.cfgWord (x : Lane) : BitVec 64 :=
  pack [(12, 4, x.cfg.ctleInit), (8, 4, x.cfg.deemph), (4, 4, x.cfg.swing), (3, 1, b2n x.txInv), (2, 1, b2n x.rxInv),
        (0, 2, x.logical)]

/-- LNK_PRBS_CTL (R328). -/
def LaneCfg.prbsWord (c : LaneCfg) : BitVec 64 :=
  pack [(16, 4, c.rate), (14, 2, c.injMode), (5, 1, b2n c.inv), (3, 2, c.poly), (1, 1, b2n c.chkEn),
        (0, 1, b2n c.genEn)]

/-- LNK_LANE_ST (R330). -/
def State.laneSt (s : State) (l : Nat) : BitVec 64 :=
  let x := s.lane l
  pack [(60, 4, x.state.code), (56, 4, x.phase), (55, 1, b2n x.cdrLock), (54, 1, b2n x.blockLock), (53, 1, b2n x.dup),
        (52, 1, b2n x.deferred), (48, 4, x.applyRes), (44, 4, x.ctle.toNat), (40, 4, x.ctleAnc.toNat),
        (37, 3, x.bw.toNat), (34, 3, x.bwAnc.toNat), (28, 6, x.ph.toNat), (22, 6, x.phAnc.toNat),
        (18, 4, (s.lport (lanePort l)).lanes.txMask.toNat)]

/-- LNK_LANE_CNT (R330). -/
def LaneCnt.word (k : LaneCnt) : BitVec 64 :=
  pack [(48, 16, k.syncErr), (32, 16, k.losses), (16, 16, k.drift), (0, 16, k.retrains)]

/-- LNK_PORT_ST (R368). -/
def LPort.word (x : LPort) : BitVec 64 :=
  let width := ((List.range 4).filter fun k => bit x.lanes.txMask k).length
  pack [(61, 3, x.state.code), (57, 4, x.reason), (54, 3, x.pdev), (52, 2, x.pport), (48, 4, width), (32, 16, x.pboot),
        (16, 10, x.replayBuf.length), (0, 7, x.retry)]

/-- LNK_PORT_CNT and LNK_PORT_CNT2 (R369). -/
def LAuth.word (x : LAuth) (n : Nat) : BitVec 64 :=
  if n = 0 then pack [(48, 16, x.replays), (32, 16, x.crcErr), (16, 16, x.macFail), (0, 16, x.suspect)]
  else pack [(48, 16, x.qdiscard), (32, 16, x.pxDrop), (16, 16, x.injected)]

/-- LNK_CAS_ST (R370). -/
def State.casSt (s : State) : BitVec 64 :=
  let c := s.cas
  pack [(62, 2, c.role), (54, 8, c.epoch), (51, 3, c.hwdev), (40, 8, c.members.toNat),
        (16, 15, (c.proxies.filter fun p => p.2.live).length), (0, 15, 512 * c.pxUnits.length)]

/-- LNK_INJ_CTL (R371). -/
def LAuth.injWord (x : LAuth) : BitVec 64 := pack [(4, 4, x.injRate), (3, 1, b2n x.injPer), (0, 2, x.injMode)]

/-! ### Power window -/

/-- A change of level is in progress. -/
def SeqOp.changes : SeqOp → Bool
  | .raise _ => true
  | .raiseEnd _ => true
  | .lower _ => true
  | .settle => true
  | .sleepLevel => true
  | .wakeLevel _ => true
  | _ => false

/-- PWR_PL_ST (R375). -/
def State.plSt (s : State) : BitVec 64 :=
  let x := s.lev
  let ret := ((List.range 4).map fun l => if (s.lvl l).retired then 2 ^ l else 0).sum
  pack [(30, 2, x.cur), (28, 2, x.tgt), (27, 1, b2n x.op.changes), (26, 1, b2n x.pend.isSome),
        (24, 2, (x.pend.map Prod.fst).getD 0), (20, 4, ret), (16, 4, x.lastres), (8, 8, x.vreq)]

/-- PWR_SLEEP_ST (R385). -/
def Pwr.sleepSt (p : Pwr) : BitVec 64 :=
  pack [(29, 3, p.phase), (28, 1, b2n p.world), (24, 4, p.result), (0, 5, p.first)]

/-- PWR_DOM_ST (R385). -/
def State.domStWord (s : State) : BitVec 64 :=
  n64 (s.blockState * 2 ^ 56 + ((List.range 28).map fun d => s.domSt d % 4 * 2 ^ (2 * d)).sum)

/-- PWR_EDDY (R385). -/
def Eddy.word (e : Eddy) : BitVec 64 :=
  pack [(32, 32, e.tick.toNat), (24, 8, e.count), (20, 4, e.kind), (0, 5, e.domain)]

/-- PWR_ST (R389). -/
def Pwr.st (p : Pwr) : BitVec 64 := pack [(31, 1, b2n p.wakeFail), (26, 5, p.wfDom)]

/-- PWR_CNT (R389). -/
def State.pwrCnt (s : State) : BitVec 64 :=
  pack [(48, 16, s.pwr.heldCnt), (32, 16, s.pwr.rollbacks), (16, 16, s.pwr.wakes), (0, 16, s.lev.lvlChg)]

/-- PWR_AGE_ST (R395). -/
def Lev.ageSt (x : Lev) : BitVec 64 :=
  pack [(56, 8, x.agePm), (48, 8, x.ageSm), (43, 5, x.pworst.toNat), (40, 3, x.sworst.toNat), (32, 2, x.ageLevel),
        (0, 32, x.reads.toNat)]

/-- PWR_LVLn (R395). -/
def State.lvlWord (s : State) (l : Nat) : BitVec 64 :=
  let x := s.lvl l
  pack [(63, 1, b2n x.retired), (62, 1, b2n x.atCeil), (40, 8, x.code), (32, 8, x.ceil), (16, 16, s.life l),
        (8, 8, x.pmargin), (0, 8, x.smargin)]

/-! ### Safety, timebase, mailbox and key vault windows -/

/-- SAF_SSA_ST and SAF_PLA_ST (R170). REBUILD_ROW after the last row, 65,536, does not fit its 16 bits; the model's choice
is that it reads 0 (DESIGN CHOICE, assumption log entry 106). -/
def Stripe.word (x : Stripe) : BitVec 64 :=
  pack [(62, 2, x.mode.code), (56, 6, x.failed1), (50, 6, x.failed2), (32, 16, x.rebuildRow), (16, 16, x.ue),
        (0, 16, x.ce)]

/-- SAF_SCRUB_ST (R170). -/
def Stripes.word (x : Stripes) : BitVec 64 := pack [(32, 32, x.passes), (16, 16, x.pmiss), (0, 16, x.row)]

/-- SAF_WEIR_ST (R201). -/
def Weir.word (w : Weir) : BitVec 64 :=
  pack [(61, 3, w.mode.code), (32, 16, w.shadowErr), (16, 16, w.selftests), (0, 16, w.replays)]

/-- SAF_DLV_ERR (R250). -/
def State.dlvErr (s : State) : BitVec 64 :=
  let st := ((List.range 16).map fun n => if (s.port n).dstall then 2 ^ n else 0).sum
  pack [(48, 16, s.saf.uqDrop), (32, 16, s.saf.parity), (0, 16, st)]

/-- TB_ST (R269). -/
def State.tbSt (s : State) : BitVec 64 :=
  let t := s.tb
  pack [(61, 3, t.state.code), (59, 2, t.uport), (56, 3, t.hops), (55, 1, b2n t.pllLost), (54, 1, b2n t.countMis),
        (53, 1, b2n t.rate), (52, 1, b2n t.offJump), (32, 20, s.holdNow), (0, 32, t.offset.toNat)]

/-- TB_DLYp (R270). -/
def TbPort.word (p : TbPort) : BitVec 64 := pack [(32, 24, p.rtt.toNat), (24, 2, p.lane.toNat), (0, 24, p.oneway.toNat)]

/-- STW_MB_ST (R451); zero where no checked ROM runs (R64). -/
def State.mbSt (s : State) : BitVec 64 :=
  if s.mailServed then
    let m := s.mbx
    pack [(63, 1, b2n m.owned), (62, 1, b2n (m.owned && m.owner)), (61, 1, b2n m.busy), (48, 8, m.status), (40, 8, m.cmd),
          (0, 12, m.rlen)]
  else 0

/-- KEY_SLOTn_ST (R424). -/
def State.keySlotWord (s : State) (n : Nat) : BitVec 64 :=
  let x := s.slot n
  pack [(61, 3, s.slotCode n), (60, 1, b2n x.copyB), (59, 1, b2n x.torn), (55, 4, x.use.toNat),
        (54, 1, b2n x.secureOnly), (53, 1, b2n x.neverExport), (48, 5, x.parent),
        (32, 16, min 65535 (s.copy x.copyB n).commits), (0, 32, x.gen)]

/-- KEY_ROOT_ST (R425). -/
def State.keyRoot (s : State) : BitVec 64 := pack [(8, 2, s.keys.root), (0, 4, s.keys.rootInv.toNat)]

/-! ### The value of every register -/

/-- What a register reads as, before the part of the access is taken; none is a read outside the bank's reach, which
ends in FAULT. -/
def State.regValue (s : State) (a : Acc) : Reg → Option (BitVec 64)
  | .glbHwver => some (n64 hwver)
  | .glbBootst => some s.bootst
  | .glbBootlogSel => some (n64 (s.bank a).logSel)
  | .glbBootlog => some ((s.boot.log[(s.bank a).logSel]?).elim 0 LogEntry.word)
  | .glbImgst => some s.imgst
  | .glbImgStageAddr => some (w64 s.img.stageAddr)
  | .glbImgStageLen => some (n64 s.img.stageLen)
  | .glbEpochCtl => some 0
  | .glbEpochAt => some s.img.at_
  | .glbEpochLast => some s.img.last
  | .glbStructDigest n => some (s.img.digest.extractLsb' (64 * n) 64)
  | .glbCflSt => some s.cflSt
  | .glbCflLastref => some s.cfl.lastRef.word
  | .glbCflRefCnt n => some (pairWord (s.cfl.refCnt.pair n))
  | .glbWheelSt => some s.wheelSt
  | .glbSmapIdx => some (n64 s.reg.smapIdx)
  | .glbSmapData => some s.smapData
  | .glbSmapLookup => some s.smapLook
  | .glbDumpAddr => some (w64 s.fatal.dumpAddr)
  | .glbDumpLen => some (n64 s.fatal.dumpLen)
  | .glbDumpCtl => some (n64 (b2n s.fatal.arrays))
  | .selSrc => some (n64 (s.bank a).selSrc)
  | .selTgt => some (n64 (s.bank a).selTgt)
  | .selSlc => some (n64 (a.page.getD (s.bank a).selSlc))
  | .selLane => some (n64 (s.bank a).selLane)
  | .selCnt => some (pack [(48, 16, (s.bank a).refused), (32, 16, (s.bank a).ignored), (16, 16, (s.bank a).fireFlt)])
  | .tgtVbase => (s.reachCtx a).map fun c => w64 (s.ctx c).vbase
  | .tgtDlvCfg => (s.reachCtx a).map fun c => (s.ctx c).dlvCfg
  | .tgtCtl => (s.reachCtx a).map fun c => n64 (b2n (s.ctx c).grpOut)
  | .tgtRun => (s.reachCtx a).map s.tgtRun
  | .tgtPres => (s.reachCtx a).map (s.tgtPres a)
  | .tgtStkIdx => (s.reachCtx a).map fun _ => n64 (s.bank a).stkIdx
  | .tgtStkData => (s.reachCtx a).map fun c => s.stkWord a c (s.bank a).stkIdx
  | .tgtDlvCnt n => (s.reachCtx a).map fun c => (s.ctx c).cnt.word n
  | .tgtGrpCfg => (s.reachGrp a).map fun g => (s.grp g).cfg
  | .tgtGrpSt => (s.reachGrp a).map fun g => (s.grp g).st
  | .tgtGrpMidx => (s.reachGrp a).map fun _ => n64 (s.bank a).grpMidx
  | .tgtGrpMdata => (s.reachGrp a).map fun g => (s.grp g).mdata (s.bank a).grpMidx
  | .tgtGrpMember => (s.reachGrp a).map fun _ => 0
  | .srcCfg => (s.reachSrc a).map fun n => (s.entry n).toWord
  | .srcEn => (s.reachSrc a).map fun n => n64 (b2n (s.entry n).en)
  | .srcFire => (s.reachSrc a).map fun _ => 0
  | .srcLine => (s.reachSrc a).map s.srcLine
  | .srcWcnt => (s.reachSrc a).map fun n => n64 (s.line n).merged
  | .slcCtl => (s.reachSlc a).map fun _ => 0
  | .slcSt => (s.reachSlc a).map s.slcStWord
  | .slcInfo => (s.reachSlc a).map s.slcInfoWord
  | .slcShare => (s.reachSlc a).map fun i => (s.slc i).staged.word
  | .slcShareLive => (s.reachSlc a).map fun i => (s.slc i).live.word
  | .slcCommit => (s.reachSlc a).map fun _ => 0
  | .slcSpill => (s.reachSlc a).map s.slcSpillWord
  | .slcLogBase => (s.reachSlc a).map fun i => (s.slc i).log.base
  | .slcLogHead => (s.reachSlc a).map fun i => (s.slc i).log.head
  | .slcLogSt => (s.reachSlc a).map fun i => (s.slc i).log.st
  | .slcCplCnt => (s.reachSlc a).map fun i => (s.slc i).cnt.cpl
  | .slcMergedCnt => (s.reachSlc a).map fun i => n64 (s.slc i).cnt.merged
  | .slcWdrawnCnt => (s.reachSlc a).map fun i => n64 (s.slc i).cnt.wdrawn
  | .slcDlCnt => (s.reachSlc a).map fun i => pairWord ((s.slc i).cnt.dlMissed, (s.slc i).cnt.dlProm)
  | .slcDlLast => (s.reachSlc a).map fun i => (s.slc i).cnt.dlLast.word
  | .slcXferAddr => (s.reachSlc a).map fun i => w64 (s.slc i).xferAddr
  | .slcXferLen => (s.reachSlc a).map fun i => n64 (s.slc i).xferLen
  | .slcXferSt => (s.reachSlc a).map fun i => (s.slc i).xferSt
  | .slcRefCnt n => (s.reachSlc a).map fun i => pairWord ((s.slc i).cnt.refPair n)
  | .slcErrIdx => some (n64 (s.bank a).errIdx)
  | .slcErrData n => some (if n = 0 then (s.errView a).1 else (s.errView a).2)
  | .lnkLaneCfg => some (s.lane (s.selLaneOf a)).cfgWord
  | .lnkLoop => some (n64 (s.lane (s.selLaneOf a)).cfg.loop)
  | .lnkPrbsCtl => some (if s.selLaneOf a < 4 then (s.lane (s.selLaneOf a)).cfg.prbsWord else 0)
  | .lnkApply => some 0
  | .lnkLaneSt => some (s.laneSt (s.selLaneOf a))
  | .lnkLaneCnt => some (s.lcnt (s.selLaneOf a)).word
  | .lnkPrbsSt => some (s.prbsRead (s.selLaneOf a)).2
  | .lnkPrbsBits => some (if s.selLaneOf a < 4 then n64 (s.lcnt (s.selLaneOf a)).bitsRead else 0)
  | .lnkPortSt => some (s.lport (s.selPortOf a)).word
  | .lnkPortCnt n => some ((s.lauthOf (s.selPortOf a)).word n)
  | .lnkInjCtl => some (s.lauthOf (s.selPortOf a)).injWord
  | .lnkCasSt => some s.casSt
  | .lnkInjEn => some (n64 (b2n s.cas.injEn))
  | .pwrPlCtl => some 0
  | .pwrPlFloor => some (n64 s.lev.floor)
  | .pwrPlSt => some s.plSt
  | .pwrSleepCtl => some 0
  | .pwrSleepSt => some s.pwr.sleepSt
  | .pwrDomSt => some s.domStWord
  | .pwrHold => some (w64 s.pwr.hold)
  | .pwrHoldSet => some (w64 s.pwr.hold)
  | .pwrEddy => some s.pwr.eddy.word
  | .pwrSt => some s.pwr.st
  | .pwrCnt => some s.pwrCnt
  | .pwrAgeSt => some s.lev.ageSt
  | .pwrLvl n => some (s.lvlWord n)
  | .safSsaSt => some s.stripes.ssa.word
  | .safPlaSt => some s.stripes.pla.word
  | .safScrubSt => some s.stripes.word
  | .safWeirSt => some s.weir.word
  | .safDlvErr => some s.dlvErr
  | .safSig => some (w64 s.saf.sig)
  | .safTmr => some (n64 s.saf.tmr)
  | .safLogHead => some (n64 s.saf.head)
  | .safLogTail => some (n64 s.saf.tail)
  | .safLogIdx => some (n64 s.saf.idx)
  | .safLogData n =>
    let r := SMap.get (0, 0) s.saf.log s.saf.idx
    some (if n = 0 then r.1 else r.2)
  | .safLogSt => some (pairWord (s.saf.lost, s.saf.skipped))
  | .safClsIdx => some (n64 s.saf.clsIdx)
  | .safClsCnt => some (n64 (SMap.get 0 s.saf.cls s.saf.clsIdx))
  | .tbCount => some s.stampHclk
  | .tbSt => some s.tbSt
  | .tbDly p => some (s.tbPort p).word
  | .tbAsym p => some (w64 (s.tbPort p).asym)
  | .stwMbSt => some s.mbSt
  | .stwMbOwn => if s.mailServed then some 0 else none
  | .stwMbCmd => if s.mailServed then some 0 else none
  | .stwMbData w => if s.mailServed && s.mailData a.world then some (SMap.get 0 s.mbx.data w) else none
  | .keySlotSt n => some (s.keySlotWord n)
  | .keySlotPgen n => some (n64 (s.slot n).pgen)
  | .keyRootSt => some s.keyRoot

/-! ### Profiles (R431) -/

/-- The class a counter of the slice window belongs to, by field: `(low bit, width, class)`. -/
def countedIn : Reg → List (Nat × Nat × Nat)
  | .tgtDlvCnt 1 => [(48, 16, 0x0F), (32, 16, 0x22), (16, 16, 0x0E)]
  | .tgtDlvCnt 2 => [(0, 16, 0x0E)]
  | .tgtGrpSt => [(32, 32, 0x21)]
  | .slcSpill => [(16, 14, 0x26)]
  | .slcDlCnt => [(0, 64, 0x20)]
  | .slcRefCnt _ => [(0, 64, 0x27)]
  | .selCnt => [(48, 16, 0x0C)]
  | _ => []

/-- Bits of a field. -/
def fieldMask (lo w : Nat) : BitVec 64 := BitVec.ofNat 64 ((2 ^ w - 1) <<< lo)

/-- Counters that a native slice's profile hides from its bank. -/
def State.hidden (s : State) (a : Acc) (r : Reg) : BitVec 64 :=
  match a.page with
  | some i => (countedIn r).foldl (fun m f => if s.profileBit i f.2.2 then m else m ||| fieldMask f.1 f.2.1) 0
  | none => 0

/-! ### RC fields -/

/-- Clear the RC fields of a register that lie within the part read and that the read returned (R3). -/
def State.regClear (s : State) (a : Acc) (r : Reg) (p : Part) : State :=
  let hide := s.hidden a r
  let shown (b : Nat) : Bool := !bit hide b
  let lo := hasLo p
  let hi := hasHi p
  let z (b : Bool) (n : Nat) : Nat := if b then 0 else n
  match r with
  | .glbCflSt => s.onCfl fun c => { c with peak := z hi c.peak }
  | .glbCflRefCnt n => s.onCfl fun c =>
    { c with refCnt := match n with
        | 0 => { c.refCnt with format := z hi c.refCnt.format, noSlice := z lo c.refCnt.noSlice }
        | 1 => { c.refCnt with world := z hi c.refCnt.world, outOfPool := z lo c.refCnt.outOfPool }
        | _ => { c.refCnt with notReady := z hi c.refCnt.notReady, closed := z lo c.refCnt.closed } }
  | .glbWheelSt => s.onWeir fun w => { w with lateMax := z lo w.lateMax }
  | .selCnt => s.onBank a fun b =>
    { b with refused := z (hi && shown 48) b.refused, ignored := z hi b.ignored, fireFlt := z lo b.fireFlt }
  | .tgtDlvCnt n =>
    match s.reachCtx a with
    | none => s
    | some c => s.onDlvCnt c fun k =>
      match n with
      | 0 => { k with takes := z hi k.takes, declines := z lo k.declines, revokes := z lo k.revokes }
      | 1 => { k with timeouts := z (hi && shown 48) k.timeouts, stray := z (hi && shown 32) k.stray,
                      order := z (lo && shown 16) k.order, abandoned := z lo k.abandoned }
      | _ => { k with void := z hi k.void, retired := z hi k.retired, withdrawn := z lo k.withdrawn,
                      badans := z (lo && shown 0) k.badans }
  | .tgtGrpSt =>
    match s.reachGrp a with
    | none => s
    | some g => s.onGrp g fun x => { x with emptyCnt := z (hi && shown 32) x.emptyCnt, mchg := z lo x.mchg }
  | .srcWcnt =>
    match s.reachSrc a with
    | none => s
    | some n => s.onLine n fun x => { x with merged := 0 }
  | .slcSpill =>
    match s.reachSlc a with
    | none => s
    | some i => s.onSlc i fun x => { x with spillPeak := z (lo && shown 16) x.spillPeak }
  | .slcLogSt =>
    match s.reachSlc a with
    | none => s
    | some i => s.onSlc i fun x => { x with log := { x.log with dropped := z lo x.log.dropped } }
  | .slcMergedCnt =>
    match s.reachSlc a with
    | none => s
    | some i => s.onSlcCnt i fun c => { c with merged := 0 }
  | .slcWdrawnCnt =>
    match s.reachSlc a with
    | none => s
    | some i => s.onSlcCnt i fun c => { c with wdrawn := 0 }
  | .slcDlCnt =>
    match s.reachSlc a with
    | none => s
    | some i => s.onSlcCnt i fun c =>
      { c with dlMissed := z (hi && shown 0) c.dlMissed, dlProm := z (lo && shown 0) c.dlProm }
  | .slcXferSt =>
    match s.reachSlc a with
    | none => s
    | some i => s.onSlc i fun x => { x with frozenMsg := z lo x.frozenMsg, purged := z lo x.purged }
  | .slcRefCnt n =>
    match s.reachSlc a with
    | none => s
    | some i => s.onSlcCnt i fun c =>
      match n with
      | 0 => { c with noSlice := z (lo && shown 0) c.noSlice }
      | 1 => { c with pageMis := z (hi && shown 0) c.pageMis, world := z (lo && shown 0) c.world }
      | 2 => { c with closed := z (hi && shown 0) c.closed, outOfPool := z (lo && shown 0) c.outOfPool }
      | _ => { c with emptyRng := z (lo && shown 0) c.emptyRng }
  | .lnkLaneCnt => s.onLcnt (s.selLaneOf a) fun k =>
    { k with syncErr := z hi k.syncErr, losses := z hi k.losses, drift := z lo k.drift, retrains := z lo k.retrains }
  | .lnkPrbsSt => if lo then (s.prbsRead (s.selLaneOf a)).1 else s
  | .lnkPortCnt n => s.onLauthOf (s.selPortOf a) fun x =>
    if n = 0 then
      { x with replays := z hi x.replays, crcErr := z hi x.crcErr, macFail := z lo x.macFail, suspect := z lo x.suspect }
    else { x with qdiscard := z hi x.qdiscard, pxDrop := z hi x.pxDrop, injected := z lo x.injected }
  | .pwrCnt =>
    (s.onPwr fun x => { x with heldCnt := z hi x.heldCnt, rollbacks := z hi x.rollbacks, wakes := z lo x.wakes }).onLev
      fun x => { x with lvlChg := z lo x.lvlChg }
  | .safSsaSt => s.onStripes fun x => { x with ssa := { x.ssa with ue := z lo x.ssa.ue, ce := z lo x.ssa.ce } }
  | .safPlaSt => s.onStripes fun x => { x with pla := { x.pla with ue := z lo x.pla.ue, ce := z lo x.pla.ce } }
  | .safScrubSt => s.onStripes fun x => { x with pmiss := z lo x.pmiss }
  | .safWeirSt => s.onWeir fun w =>
    { w with shadowErr := z hi w.shadowErr, selftests := z lo w.selftests, replays := z lo w.replays }
  | .safDlvErr => s.onSaf fun x => { x with uqDrop := z hi x.uqDrop, parity := z hi x.parity }
  | .safLogSt => s.onSaf fun x => { x with lost := z hi x.lost, skipped := z lo x.skipped }
  | .safClsCnt => s.onSaf fun x => { x with cls := SMap.set 0 x.cls x.clsIdx 0 }
  | _ => s

/-- TB_COUNT by parts (R268): a read of the low half latches the high one in its bank, whose next read gives it. -/
def State.readCount (s : State) (a : Acc) (p : Part) : State × BitVec 64 :=
  let v := s.stampHclkAt a.at_
  match p with
  | .full => (s.drawn, v)
  | .lo => (s.drawn.onBank a fun b => { b with tbHi := some (v.extractLsb' 32 32) }, v)
  | .hi =>
    match (s.bank a).tbHi with
    | some h => (s.onBank a fun b => { b with tbHi := none }, w64 h <<< 32)
    | none => (s.drawn, v)

/-- The selected source's entry is accessed by a read of it: a reserved STATE is written back as IDLE (R145). -/
def State.readFix (s : State) (a : Acc) : Reg → State
  | .srcCfg | .srcEn => (s.reachSrc a).elim s fun n => s.onSource n id
  | _ => s

/-- A read of one register: the state after it and the data of the part in its place; none is FAULT. -/
def State.readReg (s : State) (a : Acc) (h : Hit) : Option (State × BitVec 64) :=
  if h.reg = .tbCount then
    let r := s.readCount a h.part
    some (r.1, partBits h.part r.2)
  else
    let s := s.readFix a h.reg
    (s.regValue a h.reg).map fun v =>
      (s.regClear a h.reg h.part, partBits h.part (v &&& ~~~ s.hidden a h.reg))

end Sys2Proof.Machine
end

