-- ==== Sys2Proof/Machine/RegWrite.lean ====
section
/-!
DEFINITION. What a write of each register does (R2, R17, R106, R117, R128, R137, R141, R154 to R159, R174, R196, R203,
R205, R207, R209, R217, R218, R222, R231, R244, R268 to R274, R277 to R282, R284, R295, R324 to R328, R367, R371, R374,
R375, R379, R380, R385, R389, R400, R401, R430, R436, R446 to R453, R469). The flag of an answer is false for FAULT.
-/

namespace Sys2Proof.Machine

/-- A register's answer: the state after it, and whether it completes with DONE. -/
abbrev WRes := State × Bool

/-- DONE. -/
def done (s : State) : WRes := (s, true)

/-- FAULT. -/
def faulted (s : State) : WRes := (s, false)

/-! ### Source window (R88, R105, R141, R155 to R159, R205, R354, R469) -/

/-- A source that no slice owns (R469). -/
def State.noOwner (s : State) (n : Nat) : Bool := isMsg n && (s.sourceSlice n).isNone

/-- A pool that takes no commit: FROZEN, RESTORING or UNASSIGNED (R277). -/
def State.poolClosed (s : State) (n : Nat) : Bool :=
  match s.extentSlice n with
  | some i => (s.slc i).state = .frozen || (s.slc i).state = .restoring || (s.slc i).state = .unassigned
  | none => false

/-- A line without a device is never enabled (R88). -/
def State.lineUnused (s : State) (n : Nat) : Bool := isWire n && !wiredInUse (wiredRec s.img.active n)

/-- CLEAN of the slice whose pool holds a source clears at a commit to it (R282). -/
def State.poolDirty (s : State) (n : Nat) : State :=
  match s.extentSlice n with
  | some i => s.onSlc i fun x => { x with clean := false }
  | none => s

/-- A source that no commit enables: a line without a device (R88), and in SAFE_MINIMAL every source but a wired one
with a valid fallback route (R65, R98, R103). -/
def State.neverEnabled (s : State) (n : Nat) : Bool :=
  s.lineUnused n ||
    (s.boot.mode = .safeMinimal && !((n < 14 || isWire n) && fbValid (recAt s.img.active.fallback n)))

/-- The entry a commit of `w` asks for: fields that are locked or that the source ignores keep their value (R155). -/
def State.writable (s : State) (n : Nat) (w : BitVec 64) : Entry :=
  let e := s.entry n
  let x := Entry.ofWord w
  let fixed := isSov n || isSelf n
  { e with
    en := if isSov n then e.en else if s.neverEnabled n && x.en then e.en else x.en,
    trig := if isWire n then x.trig else e.trig,
    prio := if isSov n then e.prio else x.prio,
    route := if fixed then e.route else x.route,
    rmode := if fixed then e.rmode else x.rmode,
    vec := if fixed then e.vec else x.vec,
    dlb := if fixed then e.dlb else x.dlb }

/-- Bits of an entry but STATE. -/
def notState (w : BitVec 64) : BitVec 64 := w &&& 0x1FFFFFFFFFFFFFFF

/-- A commit writes something that its source does not take: it is counted once (R105, R155). -/
def State.ignores (s : State) (n : Nat) (w : BitVec 64) : Bool := notState w != notState (s.writable n w).toWord

/-- Why a commit is refused. -/
inductive CfgRefusal where
  | plain
  | otherWorld
  deriving DecidableEq, Repr

/-- World of the owner a route names. -/
def State.routeWorld (s : State) (rmode : Bool) (route : BitVec 13) : Bool :=
  if rmode then (s.grp (routeGrp route)).world else ctxWorld (routeCtx route)

/-- A group route to no group, or a route that breaks R104; a cross-world route is reported. -/
def State.routeRefusal (s : State) (a : Acc) (n : Nat) (e' : Entry) : Option CfgRefusal :=
  let e := s.entry n
  if e'.rmode == e.rmode && e'.route == e.route then none
  else if e'.rmode && !(s.grp (routeGrp e'.route)).defined then some .plain
  else if s.routeWorld e'.rmode e'.route != e.world then some .otherWorld
  else if !routeOk s.img.active s.dev e'.route e'.rmode (some e.world) then some .plain
  else match a.page with
    | some i => if s.ownsRoute i e'.rmode e'.route then none else some .plain
    | none => none

/-- A new fixed route to another device is taken in IDLE and PENDING only (R354). -/
def State.remoteRefused (s : State) (n : Nat) (e' : Entry) : Bool :=
  let e := s.entry n
  s.remoteRoute e'.rmode e'.route && !(e'.rmode == e.rmode && e'.route == e.route) &&
    match e.state with
    | .idle => false
    | .pending => false
    | .forwarded => match s.fwd n with
      | some f => f.grp.isSome || routeDev e'.route != f.dev
      | none => true
    | _ => true

/-- Why a commit to a source is refused, if it is. -/
def State.cfgRefusal (s : State) (a : Acc) (n : Nat) (e' : Entry) : Option CfgRefusal :=
  if s.noOwner n || s.poolClosed n then some .plain
  else match s.routeRefusal a n e' with
    | some r => some r
    | none => if s.remoteRefused n e' then some .plain else none

/-- A commit of a changed TRIG lets a waiting report of the line pass under the old one first (R117). -/
def State.flushLatch (s : State) (n : Nat) (e' : Entry) : State :=
  let e := s.entry n
  let l := s.latch n
  if isWire n && e.trig != e'.trig && e.en && l.valid then
    (s.onLatch n fun _ => {}).resolveRow n l.stamp l.kind
  else s

/-- A commit of a whole entry. -/
def State.commitCfg (s : State) (a : Acc) (n : Nat) (w : BitVec 64) : WRes :=
  let s := s.onBank a fun b => { b with stagedLo := none }
  let e' := s.writable n w
  match s.cfgRefusal a n e' with
  | some r =>
    let t := (s.countRefused a).onSource n id
    faulted (match r with
      | .otherWorld => t.failSrc 0x0C n 1
      | .plain => t)
  | none =>
    let t := if s.ignores n w then s.countIgnored a else s
    done (((t.flushLatch n e').commitEntry n e').poolDirty n)

/-- A write of SRC_CFG (R156). -/
def State.writeCfg (s : State) (a : Acc) (n : Nat) (p : Part) (v : BitVec 64) : WRes :=
  match p with
  | .lo => done (s.onBank a fun b => { b with stagedLo := some (v.extractLsb' 0 32) })
  | .hi =>
    let lo := match (s.bank a).stagedLo with
      | some l => w64 l
      | none => partBits .lo (s.entry n).toWord
    s.commitCfg a n (partBits .hi v ||| lo)
  | .full => s.commitCfg a n v

/-- A write of SRC_EN (R159); the staged low half of the bank stays. -/
def State.writeEn (s : State) (a : Acc) (n : Nat) (en : Bool) : WRes :=
  let e := s.entry n
  let e' := s.writable n { e with en := en }.toWord
  if s.noOwner n || s.poolClosed n then faulted (s.countRefused a)
  else
    let t := if e'.en != en then s.countIgnored a else s
    done ((t.commitEntry n e').poolDirty n)

/-- A source that SRC_FIRE ignores. -/
def State.fireIgnored (s : State) (n : Nat) : Bool :=
  isSov n || isSelf n || s.lineUnused n || (isWire n && (s.entry n).trig)

/-- A SRC_FIRE that the block refuses: no slice, a slice that is not ACTIVE; in SAFE_MINIMAL all but an edge line that
the fallback table enables. -/
def State.fireRefused (s : State) (n : Nat) : Bool :=
  if s.boot.mode = .safeMinimal then isMsg n || !(s.entry n).en
  else match s.sourceSlice n with
    | some i => !s.sliceActive i
    | none => true

/-- A write of SRC_FIRE, stamped with the count at its request transfer (R140, R141). -/
def State.writeFire (s : State) (a : Acc) (n : Nat) (fire : Bool) : WRes :=
  if !fire then done s
  else if s.fireIgnored n then done (s.countIgnored a)
  else if s.fireRefused n then faulted (s.countFireFault a)
  else match s.drawn.enterWindow 0 n ((s.sourceSlice n).getD 0) (s.stampHclkAt a.at_) (s.express n) 4 .fire
    with
    | some t => done t
    | none => faulted (s.countFireFault a)

/-! ### Target context window (R217, R218, R244) -/

/-- A write of TGT_DLV_CFG. -/
def State.writeDlvCfg (s : State) (a : Acc) (c : Nat) (v : BitVec 64) : WRes :=
  let p := fld v 16 10
  if p = 0 || 1000 < p then faulted (s.countRefused a)
  else done (s.onCtx c fun x => { x with ptmo := p, dhold := fld v 0 12 })

/-- LASTOP of an add (R217). -/
def State.addCode (s : State) (g : Nat) (m : BitVec 13) : Nat :=
  let x := s.grp g
  if ctxWorld (routeCtx m) != x.world then 3
  else if s.isLocal m && !(s.ctx (routeCtx m)).inUse then 4
  else if !s.isLocal m && (!x.cascadeWide || casRole s.img.active = 0) then 5
  else if x.members.contains m then 1
  else if x.limit ≤ x.members.length then 2
  else 0

/-- RRPTR after the member at index `j` of a list of `n` leaves it (R218). -/
def rrAfter (n rr j : Nat) : Nat :=
  if n ≤ 1 then 0 else if j < rr then rr - 1 else if rr < j then rr else if j = 0 then n - 2 else j - 1

/-- A list without its element at an index. -/
def dropAt (l : List (BitVec 13)) (j : Nat) : List (BitVec 13) := l.take j ++ l.drop (j + 1)

/-- MCHG after one more change; a FROZEN or RESTORING slice's counters stay (R217, R290). -/
def State.countChange (s : State) (x : Grp) : Nat := if s.frozenSlice x.slice then x.mchg else satInc 16 x.mchg

/-- An add. -/
def State.addMember (s : State) (g : Nat) (m : BitVec 13) : WRes :=
  let c := s.addCode g m
  let t := s.onGrp g fun x =>
    if c = 0 then { x with lastop := 0, members := x.members ++ [m], mchg := s.countChange x }
    else { x with lastop := c }
  if c = 3 then faulted (t.fail 0x0C (s.grpSliceOf g) 3 g 2) else (t, c = 0 || c = 1)

/-- A removal. -/
def State.removeMember (s : State) (g : Nat) (m : BitVec 13) : WRes :=
  let x := s.grp g
  if x.members.contains m then
    let j := x.members.idxOf m
    done (s.onGrp g fun x =>
      { x with lastop := 0, members := dropAt x.members j, rrptr := rrAfter x.members.length x.rrptr j,
               mchg := s.countChange x })
  else done (s.onGrp g fun x => { x with lastop := 1 })

/-- A write of TGT_GRP_MEMBER. -/
def State.writeMember (s : State) (g : Nat) (v : BitVec 64) : WRes :=
  let m := v.extractLsb' 0 13
  if bit v 16 then s.addMember g m else s.removeMember g m

/-! ### Slice window -/

/-- A write of SLC_SPILL: HWM. -/
def State.writeHwm (s : State) (i : Nat) (p : Part) (v : BitVec 64) : State :=
  if hasHi p then s.onSlc i fun x => { x with hwm := min 8192 (fld v 32 16) } else s

/-- A write of SLC_LOG_BASE: it holds once the entries already buffered are written (R174). A low half waits for the
high half, so that ADDR and EN change together (R7; DEDUCED, assumption log entry 72). -/
def State.writeLogBase (s : State) (i : Nat) (p : Part) (v : BitVec 64) : State :=
  match p with
  | .lo => s.onSlc i fun x => { x with log := { x.log with stagedLo := some (v.extractLsb' 0 32) } }
  | _ =>
    let l := (s.slc i).log
    let new := mergePart p (l.stagedLo.elim l.base w64) v &&& 0x0000FFFFFFFFFFE1
    (s.onSlc i fun x => { x with log := { x.log with newBase := some new, stagedLo := none } }).logSwitch i

/-! ### Power window (R380) -/

/-- A write of PWR_SLEEP_CTL: a low half, the domains, waits for the high half, TARGET and CLAMP (R7, R380; DEDUCED,
assumption log entry 72). -/
def State.writeSleep (s : State) (world : Bool) (p : Part) (v : BitVec 64) : State :=
  match p with
  | .lo => s.onPwr fun x => { x with stagedLo := some (v.extractLsb' 0 32) }
  | _ =>
    let w := mergePart p (s.pwr.stagedLo.elim 0 w64) v
    (s.onPwr fun x => { x with stagedLo := none }).sleepWrite world w

/-! ### Link and lane window (R324 to R328, R367, R371) -/

/-- A write of LNK_PRBS_CTL: staged but INJ_ONE. -/
def State.writePrbs (s : State) (l : Nat) (v : BitVec 64) : State :=
  let t := s.stageLane l fun c =>
    { c with rate := fld v 16 4, injMode := fld v 14 2, inv := bit v 5, poly := fld v 3 2, chkEn := bit v 1,
             genEn := bit v 0 }
  if bit v 31 then t.injectBit l else t

/-- A write of LNK_INJ_CTL. -/
def State.writeInj (s : State) (p : Nat) (v : BitVec 64) : WRes :=
  if s.cas.injEn && s.straps.lcs ≠ 3 then
    done (s.onLauthOf p fun x =>
      { x with injRate := fld v 4 4, injPer := bit v 3, injMode := fld v 0 2, injOne := x.injOne || bit v 31 })
  else faulted s

/-- A write of LNK_INJ_EN: the first one after a cold reset holds. -/
def State.writeInjEn (s : State) (v : BitVec 64) : State :=
  if s.cas.injWrote then s else s.onCas fun c => { c with injEn := bit v 0, injWrote := true }

/-! ### Safety and timebase windows -/

/-- Bits of SAF_SIG that ignore their clear (R401). -/
def State.sigHeld (s : State) : BitVec 32 := sigBit 0x02 ||| sigBit 0x07 ||| sigBit 0x12 ||| s.saf.fatalSig

/-- A write of SAF_SIG: with the last bit the rails toggle again. -/
def State.writeSig (s : State) (v : BitVec 64) : State :=
  let sig := s.saf.sig &&& ~~~ (v.extractLsb' 0 32 &&& ~~~ s.sigHeld)
  s.onSaf fun x =>
    { x with sig := sig, rails := if sig = 0 && x.sig ≠ 0 && x.rails = .error then .healthy else x.rails }

/-- A write of SAF_TMR. -/
def State.writeTmr (s : State) (v : BitVec 64) : WRes :=
  let n := fld v 0 7
  if n = 0 || 125 < n then faulted s else done (s.onSaf fun x => { x with tmr := n })

/-- A write of SAF_LOG_TAIL: never past HEAD (R430). -/
def State.writeTail (s : State) (v : BitVec 64) : WRes :=
  let n := fld v 0 8
  if s.saf.unread < (n + 256 - s.saf.tail) % 256 then faulted s else done (s.onSaf fun x => { x with tail := n })

/-- A write of TB_ST: W1C of the fault flags (R269). -/
def State.writeTbSt (s : State) (v : BitVec 64) : State :=
  s.onTb fun t =>
    { t with pllLost := t.pllLost && !bit v 55, countMis := t.countMis && !bit v 54, rate := t.rate && !bit v 53,
             offJump := t.offJump && !bit v 52 }

/-- A write of PID to GLB_SMAP_LOOKUP (R272). -/
def State.writeLook (s : State) (pid : BitVec 20) : State :=
  s.onReg fun r =>
    match smapFind s.img.active pid with
    | some h => { r with lookPid := pid, lookHit := true, lookIdx := h, lookSlc := smapSlice (recAt s.img.active.smap h) }
    | none => { r with lookPid := pid, lookHit := false, lookIdx := 0, lookSlc := 0 }

/-- A write of the mailbox's data area. -/
def State.writeMbData (s : State) (a : Acc) (w : Nat) (p : Part) (v : BitVec 64) : WRes :=
  if s.mailServed && s.mailData a.world then
    done (s.onMbx fun m => { m with data := SMap.upd 0 m.data w fun old => mergePart p old v })
  else faulted s

/-- A write that acts on a mailbox that is served. -/
def State.mailWrite (s : State) (f : State → WRes) : WRes := if s.mailServed then f s else faulted s

/-- A write that acts on what the bank reaches. -/
def State.reached (s : State) (o : Option Nat) (f : Nat → WRes) : WRes :=
  match o with
  | some n => f n
  | none => faulted s

/-! ### Every register -/

/-- What the fatal sequence leaves unchanged (R437): the arrays, which a commit of a structure clears too, queues,
stacks and the error log. A write of GLB_EPOCH_CTL completes with DONE nevertheless (R107). -/
def frozenByFatal : Reg → Bool
  | .glbEpochCtl | .srcCfg | .srcEn | .srcFire | .slcCtl | .safLogTail => true
  | _ => false

/-- A write of one register. -/
def State.writeReg (s : State) (a : Acc) (h : Hit) : WRes :=
  let v := h.data
  let p := h.part
  if s.fatal.inSeq && frozenByFatal h.reg then (s, h.reg == .glbEpochCtl)
  else match h.reg with
  | .glbBootlogSel => done (s.onBank a fun b => { b with logSel := fld v 0 6 })
  | .glbImgStageAddr => done (s.onImg fun i =>
      { i with stageAddr := (mergePart p (w64 i.stageAddr) v).extractLsb' 0 48 &&& 0xFFFFFFFFFFE0 })
  | .glbImgStageLen => done (s.onImg fun i => { i with stageLen := fld v 0 23 })
  | .glbEpochCtl => done (s.epochCtl v)
  | .glbEpochAt => done (s.onImg fun i => { i with at_ := mergePart p i.at_ v })
  | .glbCflLastref => done (s.onCfl fun c =>
      { c with lastRef := { c.lastRef with valid := c.lastRef.valid && !bit v 56 } })
  | .glbSmapIdx => done (s.onReg fun r => { r with smapIdx := fld v 0 12 })
  | .glbSmapLookup => done (if hasLo p then s.writeLook (v.extractLsb' 0 20) else s)
  | .glbDumpAddr => done (s.onFatal fun f =>
      { f with dumpAddr := (mergePart p (w64 f.dumpAddr) v).extractLsb' 0 48 &&& 0xFFFFFFFFF000 })
  | .glbDumpLen => done (s.onFatal fun f => { f with dumpLen := fld v 0 26 })
  | .glbDumpCtl => done (s.onFatal fun f => { f with arrays := bit v 0 })
  | .selSrc => done (s.onBank a fun b => { b with selSrc := fld v 0 21, stagedLo := none })
  | .selTgt => done (s.onBank a fun b => { b with selTgt := fld v 0 11, stkIdx := 0, grpMidx := 0 })
  | .selSlc => done (if a.page.isSome then s else s.onBank a fun b => { b with selSlc := fld v 0 12 })
  | .selLane =>
    let t := s.onBank a fun b => { b with selLane := fld v 0 4 }
    done (if a.world then t.unstage else t)
  | .tgtVbase => s.reached (s.reachCtx a) fun c => done (s.onCtx c fun x =>
      { x with vbase := (mergePart p (w64 x.vbase) v).extractLsb' 0 48 &&& 0xFFFFFFFFFFF0 })
  | .tgtDlvCfg => s.reached (s.reachCtx a) fun c => s.writeDlvCfg a c v
  | .tgtCtl => s.reached (s.reachCtx a) fun c => done (s.onCtx c fun x => { x with grpOut := bit v 0 })
  | .tgtStkIdx => s.reached (s.reachCtx a) fun _ => done (s.onBank a fun b => { b with stkIdx := fld v 0 4 })
  | .tgtGrpMidx => s.reached (s.reachGrp a) fun _ => done (s.onBank a fun b => { b with grpMidx := fld v 0 6 })
  | .tgtGrpMember => s.reached (s.reachGrp a) fun g => s.writeMember g v
  | .srcCfg => s.reached (s.reachSrc a) fun n => s.writeCfg a n p v
  | .srcEn => s.reached (s.reachSrc a) fun n => s.writeEn a n (bit v 0)
  | .srcFire => s.reached (s.reachSrc a) fun n => s.writeFire a n (bit v 0)
  | .slcCtl => s.reached (s.reachSlc a) fun i =>
      let r := s.slcCmd i (s.isManager a.world a.pid) (fld v 0 4)
      (r.1, !r.2)
  | .slcShare => s.reached (s.reachSlc a) fun i => done (s.onSlc i fun x =>
      { x with staged := Share.ofWord (mergePart p x.staged.word v) })
  | .slcCommit => s.reached (s.reachSlc a) fun i => done (if bit v 0 then s.shareCommit i else s)
  | .slcSpill => s.reached (s.reachSlc a) fun i => done (s.writeHwm i p v)
  | .slcLogBase => s.reached (s.reachSlc a) fun i => done (s.writeLogBase i p v)
  | .slcLogSt => s.reached (s.reachSlc a) fun i => done (s.onSlc i fun x =>
      { x with log := { x.log with fault := x.log.fault && !bit v 63 } })
  | .slcDlLast => s.reached (s.reachSlc a) fun i => done (s.onSlcCnt i fun c =>
      { c with dlLast := { c.dlLast with valid := c.dlLast.valid && !bit v 31 } })
  | .slcXferAddr => s.reached (s.reachSlc a) fun i => done (s.onSlc i fun x =>
      { x with xferAddr := (mergePart p (w64 x.xferAddr) v).extractLsb' 0 48 &&& 0xFFFFFFFFFFE0 })
  | .slcXferLen => s.reached (s.reachSlc a) fun i => done (s.onSlc i fun x => { x with xferLen := fld v 0 32 })
  | .slcErrIdx => done (s.onBank a fun b => { b with errIdx := fld v 0 8 })
  | .lnkLaneCfg => done (s.stageLane (s.selLaneOf a) fun c =>
      { c with ctleInit := fld v 12 4, deemph := fld v 8 4, swing := fld v 4 4 })
  | .lnkLoop => done (s.stageLane (s.selLaneOf a) fun c => { c with loop := fld v 0 2 })
  | .lnkPrbsCtl => done (s.writePrbs (s.selLaneOf a) v)
  | .lnkApply => s.applyWrite (s.selLaneOf a) v
  | .lnkInjCtl => s.writeInj (s.selPortOf a) v
  | .lnkInjEn => done (s.writeInjEn v)
  | .pwrPlCtl => done (s.levelWrite (fld v 0 2) a.world)
  | .pwrPlFloor => done (s.floorWrite (fld v 0 2))
  | .pwrSleepCtl => done (s.writeSleep a.world p v)
  | .pwrHold => done (s.holdClear (v.extractLsb' 0 28))
  | .pwrHoldSet => done (s.holdSet (v.extractLsb' 0 28))
  | .pwrSt => done (s.onPwr fun x => { x with wakeFail := x.wakeFail && !bit v 31 })
  | .safSig => done (s.writeSig v)
  | .safTmr => s.writeTmr v
  | .safLogTail => s.writeTail v
  | .safLogIdx => done (s.onSaf fun x => { x with idx := fld v 0 8 })
  | .safClsIdx => done (s.onSaf fun x => { x with clsIdx := fld v 0 6 })
  | .tbSt => done (s.writeTbSt v)
  | .tbAsym n => done (s.onTbPort n fun x => { x with asym := v.extractLsb' 0 16 })
  | .stwMbOwn => s.mailWrite fun t => t.mailOwn a.world v
  | .stwMbCmd => s.mailWrite fun t => t.mailCmd a.world (fld v 0 8)
  | .stwMbData w => s.writeMbData a w p v
  | .stwMbSt => if s.boot.mode = .halted && !s.mailServed then faulted s else done s
  | .tgtRun | .tgtPres | .tgtStkData | .tgtDlvCnt _ => s.reached (s.reachCtx a) fun _ => done s
  | .tgtGrpCfg | .tgtGrpSt | .tgtGrpMdata => s.reached (s.reachGrp a) fun _ => done s
  | .srcLine | .srcWcnt => s.reached (s.reachSrc a) fun _ => done s
  | .slcSt | .slcInfo | .slcShareLive | .slcLogHead | .slcCplCnt | .slcMergedCnt | .slcWdrawnCnt | .slcDlCnt
  | .slcXferSt | .slcRefCnt _ => s.reached (s.reachSlc a) fun _ => done s
  | .glbHwver | .glbBootst | .glbBootlog | .glbImgst | .glbEpochLast | .glbStructDigest _ | .glbCflSt
  | .glbCflRefCnt _ | .glbWheelSt | .glbSmapData | .selCnt | .slcErrData _ | .lnkLaneSt | .lnkLaneCnt | .lnkPrbsSt
  | .lnkPrbsBits | .lnkPortSt | .lnkPortCnt _ | .lnkCasSt | .pwrPlSt | .pwrSleepSt | .pwrDomSt | .pwrEddy | .pwrCnt
  | .pwrAgeSt | .pwrLvl _ | .safSsaSt | .safPlaSt | .safScrubSt | .safWeirSt | .safDlvErr | .safLogHead
  | .safLogData _ | .safLogSt | .safClsCnt | .tbCount | .tbDly _ | .keySlotSt _ | .keySlotPgen _ | .keyRootSt => done s

end Sys2Proof.Machine
end

