-- ==== Sys2Proof/Machine/RegPort.lean ====
section
/-!
DEFINITION. The register port: what serves an access, how it waits for a domain, its response; work that a woken
domain releases; the commands that are one register access (R13 to R19, R64, R67, R275, R377, R386, R442 to R449).
-/

namespace Sys2Proof.Machine

/-! ### Acceptance -/

/-- A read of STW_MB_ST alone. -/
def Acc.readsMbSt (a : Acc) : Bool := !a.write && a.hits.length == 1 && a.hits.all fun h => h.reg == .stwMbSt

/-- The register port serves an access in the block's mode: the mailbox window only where the steward answers, but for
STW_MB_ST in HALTED (R64, R67, R74). -/
def State.portServes (s : State) (a : Acc) : Bool :=
  match s.boot.mode with
  | .starting => (s.boot.warm || 6 ≤ s.boot.step) && a.low && (!a.mail || s.mailServed)
  | .halted => a.low && (!a.mail || s.mailServed || a.readsMbSt)
  | _ => true

/-- A slice page accepts an access: a native slice with a record, from the secure world or from its own requesters
(R275, R449). -/
def State.pageAccepts (s : State) (a : Acc) : Bool :=
  match a.page with
  | none => true
  | some i =>
    let x := s.slc i
    x.state != .unassigned && !x.info.mediated &&
      (a.world || (pidSlice s.img.active a.pid == some i && !x.info.world))

/-- Mode, page and World column accept every register of an access. -/
def State.accepts (s : State) (a : Acc) : Bool :=
  s.portServes a && s.pageAccepts a && a.hits.all fun h => s.worldAccepts a h.reg

/-- Domains an access needs; one that is not accepted needs none. -/
def State.accNeeds (s : State) (a : Acc) : List Nat :=
  if s.accepts a then a.hits.flatMap fun h => s.regDoms a h.reg else []

/-! ### The access -/

/-- Write the response of the register port. -/
def State.respond (s : State) (a : Acc) (fault : Bool) (data : BitVec 64) : State :=
  s.onReg fun r => { r with resps := keepResp 16 r.resps { tag := a.tag, fault := fault, data := data } }

/-- Write each register in turn, the lower one first. -/
def State.writeHits (s : State) (a : Acc) : WRes :=
  a.hits.foldl (fun r h =>
    let w := r.1.writeReg a h
    (w.1, r.2 && w.2)) (s, true)

/-- Read each register in turn; none is FAULT. -/
def State.readHits (s : State) (a : Acc) : Option (State × BitVec 64) :=
  a.hits.foldl (fun (r : Option (State × BitVec 64)) (h : Hit) => r.bind fun q =>
    (q.1.readReg a h).map fun w => (w.1, q.2 ||| BitVec.shiftLeft w.2 h.shift)) (some (s, 0))

/-- Run an access whose domains serve, with its response; a refused one changes nothing (R18). -/
def State.runAcc (s : State) (a : Acc) : State :=
  if !s.accepts a then s.respond a true 0
  else if a.write then
    let r := s.writeHits a
    r.1.respond a (!r.2) 0
  else
    match s.readHits a with
    | some r => r.1.respond a false r.2
    | none => s.respond a true 0

/-- An access transfers when fewer than 16 are outstanding, and is offered until then (R15). -/
def State.queueAcc (s : State) (a : Acc) : State :=
  s.onReg fun r =>
    if r.waiting.length < 16 then { r with waiting := r.waiting ++ [{ a with at_ := s.now }] }
    else { r with offered := r.offered ++ [a] }

/-- An access that comes in a commit that names one of its domains is a wake event, wherever it waits; it counts once
(R383, R385). -/
def State.accEvent (s : State) (a : Acc) : State :=
  match (s.accNeeds a).find? s.committing with
  | some d => s.eddyLatch 5 d
  | none => s

/-- An access on the port: behind one that stalls it waits; domains it needs wake (R19, R386, R443). -/
def State.access (s : State) (a : Acc) : State :=
  if !s.boot.crst then s
  else if !s.reg.waiting.isEmpty then (s.accEvent a).queueAcc a
  else
    let ds := s.accNeeds a
    let t := s.touch ds
    if t.allAvail ds then t.runAcc { a with at_ := s.now } else (t.queueAcc a).wakeFor ds 5

/-- A raw access: one that breaks R16 reaches no register and ends in FAULT. -/
def State.rawAccess (s : State) (q : RawReq) (write : Bool) : State :=
  s.access (if rawOk q then accOf q write else { accOf q write with low := false, mail := false, page := some 4096, hits := [] })

/-! ### Work released by a woken domain (R19, R386) -/

/-- The head access leaves the port, which takes the next one that is offered (R15). -/
def State.popAcc (s : State) : State :=
  let t := s.onReg fun r => { r with waiting := r.waiting.drop 1 }
  match t.reg.offered with
  | [] => t
  | a :: l => (t.onReg fun r => { r with offered := l }).queueAcc a

/-- Waiting accesses go on in request order until one must wait. -/
def State.drainReg (s : State) : Nat → State
  | 0 => s
  | k + 1 =>
    match s.reg.waiting with
    | [] => s
    | a :: _ =>
      let ds := s.accNeeds a
      let t := s.touch ds
      if t.allAvail ds then (t.popAcc.runAcc a).drainReg k else t.wakeAgain ds

/-- Every access of the port is tried in turn. -/
def State.drainAll (s : State) : State := s.drainReg (s.reg.waiting.length + s.reg.offered.length + 1)

/-- Everything that waits for a domain or a window entry is tried again (R130, R142, R228, R386). -/
def State.release (s : State) : State := s.drainAll.pumpDb.pumpLinks.drainUps

/-- The access at the head of the port waits for a domain. -/
def State.headWaits (s : State) (d : Nat) : Bool :=
  s.reg.waiting.head?.any fun a => (s.accNeeds a).contains d && !s.avail d

/-- An access that is not served within 100 µs of its request transfer ends in FAULT (R19): the one at the head, when
the domain it waits for has not woken; those behind it keep their turn. -/
def State.timeoutReg (s : State) (d : Nat) : State :=
  match s.reg.waiting with
  | [] => s
  | a :: _ => if s.headWaits d then s.popAcc.respond a true 0 else s

/-- The outcome of one register access. -/
def regNext (s : State) (write : Bool) (o : RegOp) (r : Reg) (p : Part) (v : BitVec 64) :
    Host.Outcome State Fault Refusal :=
  .next (s.access (accReg write o r p v))

/-! ### Register commands of every window -/

/-- REGISTER_WRITE (R13, R16). -/
def execRegisterWrite (q : RawReq) (s : State) : Host.Outcome State Fault Refusal := .next (s.rawAccess q true)

/-- REGISTER_READ (R13, R16). -/
def execRegisterRead (q : RawReq) (s : State) : Host.Outcome State Fault Refusal := .next (s.rawAccess q false)

/-- SRC_FIRE (R141). -/
def execSrcFire (r : RegOp) (s : State) : Host.Outcome State Fault Refusal := regNext s true r .srcFire .full 1

/-- SRC_CFG_LO_WRITE (R156). -/
def execSrcCfgLoWrite (r : RegOp) (v : BitVec 32) (s : State) : Host.Outcome State Fault Refusal :=
  regNext s true r .srcCfg .lo (w64 v)

/-- SRC_CFG_COMMIT (R156): the high half, or all 64 bits. -/
def execSrcCfgCommit (r : RegOp) (d : CfgData) (s : State) : Host.Outcome State Fault Refusal :=
  match d with
  | .hi v => regNext s true r .srcCfg .hi (w64 v <<< 32)
  | .full v => regNext s true r .srcCfg .full v

/-- SRC_EN_WRITE (R159). -/
def execSrcEnWrite (r : RegOp) (en : Bool) (s : State) : Host.Outcome State Fault Refusal :=
  regNext s true r .srcEn .full (n64 (b2n en))

/-- SEL_SRC_WRITE (R447, R448). -/
def execSelSrcWrite (r : RegOp) (v : BitVec 32) (s : State) : Host.Outcome State Fault Refusal :=
  regNext s true r .selSrc .full (w64 v)

/-- SEL_TGT_WRITE (R203, R448). -/
def execSelTgtWrite (r : RegOp) (v : BitVec 32) (s : State) : Host.Outcome State Fault Refusal :=
  regNext s true r .selTgt .full (w64 v)

/-- SEL_LANE_WRITE (R325, R448). -/
def execSelLaneWrite (r : RegOp) (v : BitVec 32) (s : State) : Host.Outcome State Fault Refusal :=
  regNext s true r .selLane .full (w64 v)

/-- TGT_DLV_CFG_WRITE (R244). -/
def execTgtDlvCfgWrite (r : RegOp) (v : BitVec 32) (s : State) : Host.Outcome State Fault Refusal :=
  regNext s true r .tgtDlvCfg .full (w64 v)

/-- GROUP_MEMBER_ADD (R217). -/
def execGroupMemberAdd (r : RegOp) (m : BitVec 13) (s : State) : Host.Outcome State Fault Refusal :=
  regNext s true r .tgtGrpMember .full (n64 (2 ^ 16 + m.toNat))

/-- GROUP_MEMBER_REMOVE (R217). -/
def execGroupMemberRemove (r : RegOp) (m : BitVec 13) (s : State) : Host.Outcome State Fault Refusal :=
  regNext s true r .tgtGrpMember .full (w64 m)

/-- SMAP_LOOKUP (R272). -/
def execSmapLookup (r : RegOp) (pid : BitVec 20) (s : State) : Host.Outcome State Fault Refusal :=
  regNext s true r .glbSmapLookup .full (w64 pid)

/-- TB_COUNT_READ (R268). -/
def execTbCountRead (r : RegOp) (part : Part) (s : State) : Host.Outcome State Fault Refusal :=
  regNext s false r .tbCount part 0

/-- SLC_LOG_BASE_WRITE (R174). -/
def execSlcLogBaseWrite (r : RegOp) (v : BitVec 64) (s : State) : Host.Outcome State Fault Refusal :=
  regNext s true r .slcLogBase .full v

/-- STAGE (R106). -/
def execStage (r : RegOp) (s : State) : Host.Outcome State Fault Refusal := regNext s true r .glbEpochCtl .full 1

/-- COMMIT (R106). -/
def execCommit (r : RegOp) (s : State) : Host.Outcome State Fault Refusal := regNext s true r .glbEpochCtl .full 2

/-- DISCARD (R106). -/
def execDiscard (r : RegOp) (s : State) : Host.Outcome State Fault Refusal := regNext s true r .glbEpochCtl .full 4

/-- SHARE_COMMIT (R284). -/
def execShareCommit (r : RegOp) (s : State) : Host.Outcome State Fault Refusal := regNext s true r .slcCommit .full 1

/-- ACTIVATE (R280, R282). -/
def execActivate (r : RegOp) (s : State) : Host.Outcome State Fault Refusal := regNext s true r .slcCtl .full 1

/-- QUIESCE (R280, R283). -/
def execQuiesce (r : RegOp) (s : State) : Host.Outcome State Fault Refusal := regNext s true r .slcCtl .full 2

/-- RESET (R280, R288). -/
def execReset (r : RegOp) (s : State) : Host.Outcome State Fault Refusal := regNext s true r .slcCtl .full 3

/-- FORCE_RESET (R280, R288). -/
def execForceReset (r : RegOp) (s : State) : Host.Outcome State Fault Refusal := regNext s true r .slcCtl .full 4

/-- FREEZE (R280, R289). -/
def execFreeze (r : RegOp) (s : State) : Host.Outcome State Fault Refusal := regNext s true r .slcCtl .full 5

/-- SAVE (R280, R291). -/
def execSave (r : RegOp) (s : State) : Host.Outcome State Fault Refusal := regNext s true r .slcCtl .full 6

/-- RESTORE (R280, R292). -/
def execRestore (r : RegOp) (s : State) : Host.Outcome State Fault Refusal := regNext s true r .slcCtl .full 7

/-- THAW (R280, R282). -/
def execThaw (r : RegOp) (s : State) : Host.Outcome State Fault Refusal := regNext s true r .slcCtl .full 8

/-- SAF_SIG_CLEAR (R401). -/
def execSafSigClear (r : RegOp) (v : BitVec 32) (s : State) : Host.Outcome State Fault Refusal :=
  regNext s true r .safSig .full (w64 v)

/-- SAF_TMR_WRITE (R400). -/
def execSafTmrWrite (r : RegOp) (v : BitVec 32) (s : State) : Host.Outcome State Fault Refusal :=
  regNext s true r .safTmr .full (w64 v)

/-- LOG_TAIL_WRITE (R430). -/
def execLogTailWrite (r : RegOp) (v : BitVec 32) (s : State) : Host.Outcome State Fault Refusal :=
  regNext s true r .safLogTail .full (w64 v)

/-- MAILBOX_CLAIM (R452). -/
def execMailboxClaim (r : RegOp) (s : State) : Host.Outcome State Fault Refusal := regNext s true r .stwMbOwn .full 1

/-- MAILBOX_RELEASE (R452). -/
def execMailboxRelease (r : RegOp) (s : State) : Host.Outcome State Fault Refusal := regNext s true r .stwMbOwn .full 2

/-- VERSIONS (R453). -/
def execVersions (r : RegOp) (s : State) : Host.Outcome State Fault Refusal := regNext s true r .stwMbCmd .full 1

/-- ATTEST (R453). -/
def execAttest (r : RegOp) (s : State) : Host.Outcome State Fault Refusal := regNext s true r .stwMbCmd .full 2

/-- CERTS (R453). -/
def execCerts (r : RegOp) (s : State) : Host.Outcome State Fault Refusal := regNext s true r .stwMbCmd .full 3

/-- PROD_PUBKEY (R453). -/
def execProdPubkey (r : RegOp) (s : State) : Host.Outcome State Fault Refusal := regNext s true r .stwMbCmd .full 4

/-- LEVEL_REQUEST (R374). -/
def execLevelRequest (r : RegOp) (target : BitVec 2) (s : State) : Host.Outcome State Fault Refusal :=
  regNext s true r .pwrPlCtl .full (w64 target)

/-- PL_FLOOR_WRITE (R375). -/
def execPlFloorWrite (r : RegOp) (floor : BitVec 2) (s : State) : Host.Outcome State Fault Refusal :=
  regNext s true r .pwrPlFloor .full (w64 floor)

/-- SLEEP_REQUEST (R380). -/
def execSleepRequest (r : RegOp) (v : BitVec 64) (s : State) : Host.Outcome State Fault Refusal :=
  regNext s true r .pwrSleepCtl .full v

/-- HOLD_RELEASE (R379). -/
def execHoldRelease (r : RegOp) (v : BitVec 32) (s : State) : Host.Outcome State Fault Refusal :=
  regNext s true r .pwrHold .full (w64 v)

/-- HOLD_SET (R379). -/
def execHoldSet (r : RegOp) (v : BitVec 32) (s : State) : Host.Outcome State Fault Refusal :=
  regNext s true r .pwrHoldSet .full (w64 v)

/-- APPLY (R326). -/
def execApply (r : RegOp) (s : State) : Host.Outcome State Fault Refusal := regNext s true r .lnkApply .full 1

/-- RETRAIN (R326). -/
def execRetrain (r : RegOp) (s : State) : Host.Outcome State Fault Refusal := regNext s true r .lnkApply .full 2

/-- INJ_ONE (R324): the fields in force are written back with INJ_ONE. -/
def execInjOne (r : RegOp) (s : State) : Host.Outcome State Fault Refusal :=
  let a := accReg true r .lnkPrbsCtl .full 0
  let c := (s.lane (s.selLaneOf a)).staged.getD (s.lane (s.selLaneOf a)).cfg
  regNext s true r .lnkPrbsCtl .full (c.prbsWord ||| 0x80000000)

/-- PRBS_STATUS_READ (R329). -/
def execPrbsStatusRead (r : RegOp) (s : State) : Host.Outcome State Fault Refusal := regNext s false r .lnkPrbsSt .full 0

/-- ONE (R371): the fields of LNK_INJ_CTL are written back with ONE. -/
def execOne (r : RegOp) (s : State) : Host.Outcome State Fault Refusal :=
  let a := accReg true r .lnkInjCtl .full 0
  regNext s true r .lnkInjCtl .full ((s.lauthOf (s.selPortOf a)).injWord ||| 0x80000000)

end Sys2Proof.Machine
end

