-- ==== Sys2Proof/Machine/TestPort.lean ====
section
/-! DEFINITION. The test access port: permissions and the instructions of R409 (R409 to R411, R435). -/

namespace Sys2Proof.Machine

/-! ### The controller (R52) -/

/-- The next state of the controller at a TCK edge, by TMS (IEEE 1149.1, which R52 names: PRESUMED, assumption log
entry 90). -/
def TapCtl.next : TapCtl → Bool → TapCtl
  | .testLogicReset, tms => if tms then .testLogicReset else .runTestIdle
  | .runTestIdle, tms => if tms then .selectDr else .runTestIdle
  | .selectDr, tms => if tms then .selectIr else .captureDr
  | .captureDr, tms => if tms then .exit1Dr else .shiftDr
  | .shiftDr, tms => if tms then .exit1Dr else .shiftDr
  | .exit1Dr, tms => if tms then .updateDr else .pauseDr
  | .pauseDr, tms => if tms then .exit2Dr else .pauseDr
  | .exit2Dr, tms => if tms then .updateDr else .shiftDr
  | .updateDr, tms => if tms then .selectDr else .runTestIdle
  | .selectIr, tms => if tms then .testLogicReset else .captureIr
  | .captureIr, tms => if tms then .exit1Ir else .shiftIr
  | .shiftIr, tms => if tms then .exit1Ir else .shiftIr
  | .exit1Ir, tms => if tms then .updateIr else .pauseIr
  | .pauseIr, tms => if tms then .exit2Ir else .pauseIr
  | .exit2Ir, tms => if tms then .updateIr else .shiftIr
  | .updateIr, tms => if tms then .selectDr else .runTestIdle

/-- TMS at the edges of an instruction: to Run-Test/Idle, to Shift-IR, on to Shift-DR and back. A stay in a shift state
takes TMS 0 as often as its register has bits, which leaves the controller where it is. -/
def tapScan : List Bool :=
  [false, true, true, false, false, true, true, true, false, false, true, true, false]

/-- TMS 1 for five edges, which TRST_N stands for too, leads to Test-Logic-Reset from every state. -/
def tapReset : List Bool := List.replicate 5 true

/-- The controller after a sequence of TMS. -/
def TapCtl.walk (c : TapCtl) (tms : List Bool) : TapCtl := tms.foldl TapCtl.next c

/-! ### Permissions -/

/-- The invasive permission of a world: its enable has been 1 since the de-assertion of CRST_N (R410). -/
def State.invasive (s : State) (world : Bool) : Bool := bit s.straps.dbgLive (if world then 3 else 1)

/-- The non-invasive permission of a world, which an invasive one grants too (R409). -/
def State.nonInvasive (s : State) (world : Bool) : Bool :=
  s.invasive world || bit s.straps.dbgNow (if world then 2 else 0)

/-- Zeros are shifted out and DENIED is set (R411). -/
def State.tapDenied (s : State) : State := s.onTap fun t => { t with denied := true, out0 := 0, out1 := 0 }

/-- Data shifted out. -/
def State.tapOut (s : State) (a b : BitVec 64) : State := s.onTap fun t => { t with out0 := a, out1 := b }

/-- An instruction is scanned in, and runs where its permission holds. -/
def State.tapIf (s : State) (i : TapInstr) (ok : Bool) (f : State → State) : State :=
  let t := s.onTap fun x => { x with ctl := x.ctl.walk tapScan, ir := some i }
  if ok then f t else t.tapDenied

/-- Entry `i` of the trace, oldest first; zero beyond its end, or where its world has no enable (R435). -/
def State.traceEntry (s : State) (i : Nat) : BitVec 64 × BitVec 64 :=
  match s.trace[i]? with
  | some e => if s.nonInvasive (bit e.2 58) then e else (0, 0)
  | none => (0, 0)

/-- World that a counter belongs to. -/
def State.cntWorld (s : State) : CntSel → Bool
  | .source n => (s.entry n.toNat).world
  | .context c _ => ctxWorld c.toNat
  | .slice i _ => (s.slc i.toNat).info.world
  | .group g => (s.grp g.toNat).world

/-- The register of a counter of a slice; a TAP read clears nothing. -/
def SlcCnt.tapWord (c : SlcCnt) : SliceCnt → BitVec 64
  | .completions => c.cpl
  | .merged => n64 c.merged
  | .withdrawn => n64 c.wdrawn
  | .deadlines => pairWord (c.dlMissed, c.dlProm)
  | .refused n => pairWord (c.refPair n.toNat)

/-- The counter register that CNT_RD reads. -/
def State.cntWord (s : State) : CntSel → BitVec 64
  | .source n => n64 (s.line n.toNat).merged
  | .context c n => if n.toNat < 3 then (s.ctx c.toNat).cnt.word n.toNat else 0
  | .slice i k => (s.slc i.toNat).cnt.tapWord k
  | .group g => (s.grp g.toNat).st

/-- An entry of the SSA or the PLA as a word. -/
def State.aryWord (s : State) (pla : Bool) (n : Nat) : BitVec 64 :=
  if pla then (s.plaOf n).toWord else (s.entry n).toWord

/-- Write an entry and its row's parity past the transitions of R149, counted; a source put into COMPLETING exits in the
next pass (R150); after a FATAL reaction the arrays stay (R437). -/
def State.aryWrite (s : State) (pla : Bool) (n : Nat) (v : BitVec 64) : State :=
  if s.fatal.inSeq then s
  else
    let s := s.dropUpsets fun p m => p == pla && m == n
    let t := if pla then s.onPla n fun _ => Pla.ofWord v else s.pokeEntry n (Entry.ofWord v)
    t.onArr fun a =>
      { a with aryWr := a.aryWr + 1
               exits := if pla then a.exits else a.exits.filter (fun x => x.1 ≠ n) ++
                 (if SState.ofCode (fld v 61 3) = .completing then [(n, false)] else []) }

/-- TRACE_RD (R409, R435). -/
def execTraceRd (idx : BitVec 12) (s : State) : Host.Outcome State Fault Refusal :=
  .next (s.tapIf .traceRd (s.nonInvasive true || s.nonInvasive false) fun t =>
    t.tapOut (t.traceEntry idx.toNat).1 (t.traceEntry idx.toNat).2)

/-- CNT_RD (R409). -/
def execCntRd (c : CntSel) (s : State) : Host.Outcome State Fault Refusal :=
  .next (s.tapIf .cntRd (s.nonInvasive (s.cntWorld c)) fun t => t.tapOut (t.cntWord c) 0)

/-- STW_HALT (R409). -/
def execStwHalt (s : State) : Host.Outcome State Fault Refusal :=
  .next (s.tapIf .stwHalt (s.invasive true) fun t => t.onSaf fun x => { x with stwStop := true })

/-- STW_STEP (R409): it counts where the steward is halted. -/
def execStwStep (s : State) : Host.Outcome State Fault Refusal :=
  .next (s.tapIf .stwStep (s.invasive true) fun t =>
    t.onSaf fun x => if x.stwStop then { x with steps := x.steps + 1 } else x)

/-- ARY_RD; an SSA entry found in the reserved state is repaired, and read as it then is (R145, R377, R409). -/
def execAryRd (pla : Bool) (src : BitVec 21) (s : State) : Host.Outcome State Fault Refusal :=
  .next (s.tapIf .aryRd (s.invasive (s.entry src.toNat).world) fun t =>
    let t := (t.need [dARR src.toNat] 5).onSource src.toNat id
    t.tapOut (t.aryWord pla src.toNat) 0)

/-- ARY_WR (R377, R409). -/
def execAryWr (pla : Bool) (src : BitVec 21) (v : BitVec 64) (s : State) : Host.Outcome State Fault Refusal :=
  .next (s.tapIf .aryWr (s.invasive (s.entry src.toNat).world) fun t =>
    (t.need [dARR src.toNat] 5).aryWrite pla src.toNat v)

/-- TEST_LOGIC_RESET (R411). -/
def execTestLogicReset (s : State) : Host.Outcome State Fault Refusal :=
  .next (s.onTap fun t => { t with ctl := t.ctl.walk tapReset, ir := none, denied := false })

end Sys2Proof.Machine
end

