-- ==== Sys2Proof/Machine/KeyPort.lean ====
section
/-!
DEFINITION. The key port: messages in order, what an invalidation takes with it, the end of a commit (R48, R49, R362,
R366, R416 to R422).
-/

namespace Sys2Proof.Machine

/-- The messages that wait at the key vault. -/
def State.keyWaits (s : State) (l : List KeyMsg) : State := s.onKeys fun k => { k with waiting := l }

/-- Beats of a message on the key port (R49). -/
def KeyMsg.beats : KeyMsg → Nat
  | .load _ beats => beats.length
  | .invalidate _ => 1
  | .root => 1
  | .rootRecord => 0

/-- Beats in the key FIFO (R57). -/
def State.keyBeats (s : State) : Nat := (s.keys.waiting.map KeyMsg.beats).sum

/-- The FIFO takes the next message that the key manager offers, if it has room for its beats (R57, R58). -/
def State.keyTakeOne (s : State) : State :=
  match s.keys.offered with
  | [] => s
  | m :: l =>
    if s.keyBeats + m.beats ≤ 16 then
      s.onKeys fun k => { k with offered := l, waiting := k.waiting ++ [m] }
    else s

/-- The FIFO takes the messages that it has room for. -/
def State.keyTake (s : State) : State := s.keys.offered.foldl (fun t _ => t.keyTakeOne) s

/-- A LOAD. -/
def KeyMsg.isLoad : KeyMsg → Bool
  | .load .. => true
  | _ => false

/-- The commit under way is that of a LOAD. -/
def KeyCommit.isLoad (c : KeyCommit) : Bool := c.live.any fun x => x.present && !x.invalidated

/-- LOADs still in progress when an INVALIDATE root is acted on are answered with FAULT (R49). -/
def State.dropLoads (s : State) : State :=
  let t := if s.keys.commit.any KeyCommit.isLoad then s.tearCommit.keyAnswer false else s
  let t := (s.keys.waiting.filter KeyMsg.isLoad).foldl (fun u _ => u.keyAnswer false) t
  t.keyWaits (s.keys.waiting.filter fun m => !m.isLoad)

/-- Commit the root record (R419, R421). -/
def State.commitRoots (s : State) : State :=
  s.beginCommit 16 { header := s.keys.rootInv.setWidth 64 } fun _ => none

/-- What keys that stop being USABLE take with them; an authentication of a start that fails so is its exit 0xF (R63,
R366, R420). -/
def State.keysGone (s before : State) : State := (s.keysLost before).portsSettled s

/-- An INVALIDATE root is acted on: the alarm with LINE 31, then the ports of the link key, then every slot; the root
record is committed after a commit under way (R49, R362, R366, R419). -/
def State.invalidateRoot (s : State) : State :=
  let t := (s.dropLoads.alarmOriginate s.stampHclk 31).drawn
  let u := (t.onKeys fun k => { k with rootInv := k.rootInv ||| BitVec.ofNat 4 (2 ^ k.root) }).keysGone t
  if u.keys.commit.isSome then u.keyWaits (.rootRecord :: u.keys.waiting) else u.commitRoots

/-- A message that nothing holds back. -/
def State.keyRun (s : State) : KeyMsg → State
  | .load n beats => (s.loadSlot n beats).keysGone s
  | .invalidate n => (s.invalidateSlot n).keysGone s
  | .root => s.invalidateRoot
  | .rootRecord => s.commitRoots

/-- The next waiting message: an INVALIDATE root before what follows it and before the LOADs that came earlier. -/
def State.keyNext (s : State) : State :=
  if s.keys.waiting.contains .root then
    let before := s.keys.waiting.takeWhile fun m => m != .root
    let after := (s.keys.waiting.dropWhile fun m => m != .root).drop 1
    let t := (s.keyWaits before).invalidateRoot
    t.keyWaits (t.keys.waiting ++ after)
  else
    match s.keys.waiting with
    | [] => s
    | m :: rest => if s.keys.commit.isSome then s else (s.keyWaits rest).keyRun m

/-- Waiting messages go on while the vault is awake and no commit runs, and what the FIFO then has room for follows. -/
def State.keyPump (s : State) : Nat → State
  | 0 => s
  | k + 1 => if s.avail dSTW && !s.keys.waiting.isEmpty then s.keyNext.keyTake.keyPump k else s

/-- Every message at the key port is tried in turn. -/
def State.keyPumpAll (s : State) : State := s.keyPump (s.keys.waiting.length + s.keys.offered.length)

/-- A whole message arrives: before the vault is formed the port takes none, and a full FIFO holds it back (R58); the
vault's domain wakes for it (R48, R386). -/
def State.keyMessage (s : State) (m : KeyMsg) : State :=
  if !s.keys.formed then s
  else
    let t := ((s.touch [dSTW]).onKeys fun k => { k with offered := k.offered ++ [m] }).keyTake
    if t.avail dSTW then t.keyPumpAll else t.wakeFor [dSTW] 8

/-- A message that breaks R49 is discarded whole and answered with FAULT. -/
def State.keyRefused (s : State) : State := if s.keys.formed then s.keyAnswer false else s

/-- The commit under way completes; what its slot orphans goes, and the next message runs. -/
def State.keyCommitEnd (s : State) : State :=
  if s.keys.commit.isSome then
    (s.finishCommit.keysGone s).keyPumpAll
  else s

/-- An event at the key vault: its responses are shown, those of an earlier event while it makes none. -/
def State.keyEvent (s : State) (f : State → State) : State :=
  let t := f (s.onKeys fun k => { k with resps := [] })
  if t.keys.resps.isEmpty then t.onKeys fun k => { k with resps := s.keys.resps } else t

/-- The doorbell write that came first goes on, those behind it stay. -/
def State.pumpFirstDb (s : State) : State :=
  let n := (s.cfl.dbWait.takeWhile fun w => w.transferred).length + 1
  let t := (s.onCfl fun c => { c with dbWait := c.dbWait.take n }).pumpDb
  t.onCfl fun c => { c with dbWait := c.dbWait ++ s.cfl.dbWait.drop n }

/-- One piece of latched work goes on, by its kind and domain in the eddy latch; wired captures, the Weir's work and
holds wait in no queue of theirs (R385). -/
def State.releaseOne (s : State) (kind d : Nat) : State :=
  match kind with
  | 2 => s.pumpFirstDb
  | 3 => s.pumpLinks
  | 4 => s.drainUp (d - 7)
  | 5 => s.drainReg 1
  | 8 => s.keyPump 1
  | _ => s

/-- Work that a commit has latched is released in the order of its latching, once its rollback has ended (R384). -/
def State.releaseLatched (s : State) : State :=
  match s.pwr.latched with
  | [] => s
  | l =>
    if s.pwr.phase = 2 || s.pwr.phase = 3 then s
    else l.foldl (fun t e => t.releaseOne e.1 e.2) (s.onPwr fun p => { p with latched := [] })

/-- Everything that waits for a domain, the key port included. -/
def State.released (s : State) : State :=
  s.keyEvent fun t => t.releaseLatched.release.keyPumpAll

/-! ### Commands -/

/-- A LOAD message, which R49 limits to 16 beats. -/
def State.keyLoad (s : State) (slot : Nat) (beats : List (BitVec 64)) : State :=
  if 16 < beats.length then s.keyRefused else s.keyMessage (.load slot beats)

/-- A message by its KEY_OP: 1 LOAD, 2 INVALIDATE slot, 3 INVALIDATE root; a reserved KEY_OP is discarded (R48, R49). -/
def State.keyOp (s : State) (op : BitVec 3) (slot : Nat) (beats : List (BitVec 64)) : State :=
  match op.toNat with
  | 1 => s.keyLoad slot beats
  | 2 => if beats.length = 1 then s.keyMessage (.invalidate slot) else s.keyRefused
  | 3 => if beats.length = 1 then s.keyMessage .root else s.keyRefused
  | _ => s.keyRefused

/-- LOAD (R49, R417): a message as it stands on the key port, with its KEY_OP. -/
def execLoad (k : KeyDest) (beats : List (BitVec 64)) (s : State) : Host.Outcome State Fault Refusal :=
  .next (s.keyEvent fun t => t.keyOp k.op k.slot.toNat beats)

/-- INVALIDATE_SLOT (R418). -/
def execInvalidateSlot (slot : BitVec 4) (beats : Nat) (s : State) : Host.Outcome State Fault Refusal :=
  .next (s.keyEvent fun t => if beats = 1 then t.keyMessage (.invalidate slot.toNat) else t.keyRefused)

/-- INVALIDATE_ROOT (R419). -/
def execInvalidateRoot (beats : Nat) (s : State) : Host.Outcome State Fault Refusal :=
  .next (s.keyEvent fun t => if beats = 1 then t.keyMessage .root else t.keyRefused)

/-- KEY_STORE_COMMIT_END (R422). -/
def execKeyStoreCommitEnd (s : State) : Host.Outcome State Fault Refusal :=
  .next (s.keyEvent State.keyCommitEnd)

end Sys2Proof.Machine
end

