-- ==== Sys2Proof/Machine/PowerSeq.lean ====
section
/-!
DEFINITION. The events of the power sequencer: VGOOD, votes, PWR_ACK, wakes and ageing readings (R43, R44, R381 to
R389, R391).
-/

namespace Sys2Proof.Machine

/-- Domains of a mask have work: they are touched, and woken where they do not serve it (R386). -/
def State.wakeDoms (s : State) (ds : List Nat) : State := s.need ds 6

/-- 100 µs have passed for a domain: its wake has not ended, or the access at the head of the register port still waits
for it, behind a commit or a rollback (R19, R389). -/
def State.wakeTimeout (s : State) (d : Nat) : State :=
  if s.wakes d || s.headWaits d then ((s.wakeFails d).timeoutReg d).released else s

/-! ### Commands -/

/-- WARM_RESET (R8, R9, R74, R75): WRST_N is ignored while CRST_N is low or the always-on domain is not ready. Register
accesses that wait go on: the block answers FAULT outside the global window. -/
def execWarmReset (width : Nat) (s : State) : Host.Outcome State Fault Refusal :=
  .next (if s.boot.crst && s.boot.aoUp then pulse width s s.warmFall.drainAll else s)

/-- VGOOD_RETURN (R43). -/
def execVgoodReturn (ms : List Margins) (s : State) : Host.Outcome State Fault Refusal := .next (s.vgoodBack ms).released

/-- VGOOD_TIMEOUT (R43). -/
def execVgoodTimeout (s : State) : Host.Outcome State Fault Refusal := .next s.vgoodLost.released

/-- DOMAIN_VOTE (R382). -/
def execDomainVote (d : BitVec 5) (s : State) : Host.Outcome State Fault Refusal := .next (s.vote d.toNat)

/-- PREPARE_TIMEOUT (R382). -/
def execPrepareTimeout (s : State) : Host.Outcome State Fault Refusal := .next s.prepareEnds

/-- PWR_ACK (R44). -/
def execPwrAck (ack : BitVec 28) (s : State) : Host.Outcome State Fault Refusal := .next (s.powerAck ack).warmGo.released

/-- DOZE_REGATE (R381). -/
def execDozeRegate (d : BitVec 5) (s : State) : Host.Outcome State Fault Refusal := .next (s.regate d.toNat)

/-- DOMAIN_WAKE (R386). -/
def execDomainWake (ds : BitVec 28) (s : State) : Host.Outcome State Fault Refusal :=
  .next (s.wakeDoms (domsOf ds)).released

/-- WAKE_TIMEOUT (R389). -/
def execWakeTimeout (d : BitVec 5) (s : State) : Host.Outcome State Fault Refusal := .next (s.wakeTimeout d.toNat)

/-- AGEING_READING (R391). -/
def execAgeingReading (m : Margins) (s : State) : Host.Outcome State Fault Refusal := .next (s.ageReading m)

/-- AGEING_RESTEP (R391). -/
def execAgeingRestep (m : Margins) (s : State) : Host.Outcome State Fault Refusal := .next (s.ageAgain m)

end Sys2Proof.Machine
end

