-- ==== Sys2Proof/Machine/SliceCmds.lean ====
section
/-!
DEFINITION. The events of images, epochs and slices: staging end, structure and credit epochs, the ends of a drain, a
purge, a save and a restore (R107, R108, R283, R284, R288, R291, R292).
-/

namespace Sys2Proof.Machine

/-- The steward ends a staging while it runs (R107, R400, R409). -/
def State.stagingDone (s : State) (m : MemEnd) (img : Image) : State :=
  if s.serving && !s.saf.stwHalted && !s.saf.stwStop then s.stageEnd m img else s

/-- A structure epoch boundary: the store's domain is woken for a waiting commit; a new structure brings its level
ceilings (R108, R393). -/
def State.structureEpoch (s : State) : State :=
  if s.serving && s.img.stage = .commitPending then
    s.withDomains [dSTW] 5 fun t =>
      let u := t.epoch
      if u.img.stage = .none then u.ceilings u.img.active else u
  else s

/-! ### Commands -/

/-- STAGING_END (R107). -/
def execStagingEnd (r : StagedRead) (s : State) : Host.Outcome State Fault Refusal :=
  .next (s.stagingDone r.resp r.img)

/-- STRUCTURE_EPOCH (R108). -/
def execStructureEpoch (s : State) : Host.Outcome State Fault Refusal := .next s.structureEpoch

/-- CREDIT_EPOCH (R284). -/
def execCreditEpoch (s : State) : Host.Outcome State Fault Refusal := .next s.creditEpoch

/-- QUIESCE_DRAIN_COMPLETE (R283). -/
def execQuiesceDrainComplete (slice : BitVec 12) (s : State) : Host.Outcome State Fault Refusal :=
  .next (s.drainEnd slice.toNat)

/-- SLICE_PURGE_END (R288). -/
def execSlicePurgeEnd (slice : BitVec 12) (s : State) : Host.Outcome State Fault Refusal :=
  .next (s.unlessFatal fun t => t.forcedEnd slice.toNat)

/-- SAVE_END (R291). -/
def execSaveEnd (slice : BitVec 12) (m : MemEnd) (s : State) : Host.Outcome State Fault Refusal :=
  .next (s.saveFinish slice.toNat m)

/-- RESTORE_END (R292). -/
def execRestoreEnd (slice : BitVec 12) (r : RestoreRead) (s : State) : Host.Outcome State Fault Refusal :=
  .next (s.unlessFatal fun t =>
    if (t.slc slice.toNat).xfer = .restore then t.restoreFinish slice.toNat r.resp r.img else t)

end Sys2Proof.Machine
end

