-- ==== Sys2Proof/Machine/Delivery.lean ====
section
/-!
DEFINITION. The commands of doorbells, admission, resolution, the Weir, the sluices and the delivery ports (R21, R37,
R76, R77, R122, R123, R130, R136 to R139, R149, R182, R188, R223 to R247, R285).
-/

namespace Sys2Proof.Machine

/-- Work of a domain that runs while the block serves events and the domain is awake (R65, R377). -/
def State.inService (s : State) (d : Nat) (f : State → State) : State := if s.serving && s.avail d then f s else s

/-! ### Admission (R136, R285) -/

/-- The next class-4 firing of a slice passes into resolution. -/
def State.passC4 (s : State) (i : Nat) : State :=
  match s.c4Head i with
  | some w => s.passIn (.ent w)
  | none => s

/-- One class-4 slot among the slices whose next firing heads their spillway (R136). -/
def State.spillRelease (s : State) : State :=
  match s.grant4 (s.c4Slices.filter fun i => (s.c4Head i).any WinEnt.spilled) with
  | some (i, t) => t.passC4 i
  | none => s

/-- The starvation guard's slot (R285). -/
def State.guardSlot (s : State) : State :=
  match s.guardSlice with
  | some i => s.passC4 i
  | none => s

/-! ### The Weir (R182, R188, R199) -/

/-- Members that stopped being eligible give hand-offs back, then the pass, which finds the head words of one owner as
given (R176, R182, R361). -/
def State.weirPass (s : State) (c : Compare) (o : Nat) (h : HeadWord) : State :=
  let t := s.handoffSweep
  let (u, ok) := t.headRead o (t.lowestQueue o) h
  if ok then u.comparedPass c else u

/-- A pass at the Weir's domain: work wakes it, a pass without work does not (R377). -/
def State.passNow (s : State) (c : Compare) (o : Nat) (h : HeadWord) : State :=
  if !s.serving then s
  else if s.avail dWEIR then s.weirPass c o h
  else if s.passWork then s.withDomains [dWEIR] 6 fun t => t.weirPass c o h
  else s

/-- The visits of a slot with what the accesses of its first source find and the outcome of their compare; visits that a
rebuild of the link store or a self-test puts off are due from this boundary on (R163, R179, R197, R199). -/
def State.slotVisited (s : State) (k : Nat) (a : Access) (c : Compare) : State :=
  let due := s.now - 1000
  let (t, ok) := match SMap.get [] s.weir.wheel k with
    | n :: _ => s.arrayRead n a due
    | [] => (s, true)
  if ok && t.visits then t.compared c due fun u => u.catchUp.visitSlot k (u.slotBoundary k) else t

/-- A slot boundary; where no visit can be made, while the Weir sleeps or a sleep commit names it, both copies test
themselves or the link store is derived again, the slot is visited later (R179, R188, R194, R199). -/
def State.slotVisit (s : State) (k : Nat) (a : Access) (c : Compare) : State :=
  if !s.serving then s
  else if s.visits then s.slotVisited k a c
  else s.onWeir fun w => w.pause (s.now - 1000)

/-- Errors come into the arrays, in the model with a pass of the Weir; one in an express map bit is met by the confluence
(R133, R163, R176, R179; DESIGN CHOICE, assumption log entry 102). -/
def State.errorsCome (s : State) (l : List Upset) : State :=
  l.foldl (fun t u => match u with
    | .map n => t.loseMap n.toNat
    | v => { t with upsets := t.upsets ++ [v] }) s

/-! ### Delivery ports (R37, R76, R77) -/

/-- DLVn_CRST_N falls; the change wakes the port's domain. -/
def State.portFalls (s : State) (n : Nat) : State :=
  if (s.port n).inReset then s
  else if s.fatal.inSeq then s.onPort n fun x => { x with inReset := true, uReady := false, down := [] }
  else (s.resetPort n).withDomains [dDLV n] 4 fun t => t

/-- DLVn_CRST_N rises; before the end of step 10 DLVn_U_READY stays low (R32). -/
def State.portRises (s : State) (n : Nat) : State :=
  if (s.port n).inReset then
    let ready := s.boot.warm || 10 ≤ s.boot.step
    (s.onPort n fun x => { x with inReset := false, uReady := ready }).withDomains [dDLV n] 4 fun t => t
  else s

/-- A synchronised sample of DLVn_AWAKE; the synchronisers run with the Weir's domain, from step 4 or the end of a
warm reset's clear on. -/
def State.awakeSample (s : State) (n : Nat) (mask : BitVec 32) : State :=
  if s.boot.crst && 4 ≤ s.boot.step then s.onPort n fun x => { x with awake := mask } else s

/-! ### Commands -/

/-- PORT_RESET (R76). -/
def execPortReset (n : BitVec 4) (s : State) : Host.Outcome State Fault Refusal := .next (s.portFalls n.toNat)

/-- PORT_RESET_RELEASE (R77). -/
def execPortResetRelease (n : BitVec 4) (s : State) : Host.Outcome State Fault Refusal := .next (s.portRises n.toNat)

/-- AWAKE_CHANGE (R37). -/
def execAwakeChange (n : BitVec 4) (mask : BitVec 32) (s : State) : Host.Outcome State Fault Refusal :=
  .next (s.awakeSample n.toNat mask)

/-- DOORBELL_SINGLE (R122). -/
def execDoorbellSingle (r : DbReq) (s : State) : Host.Outcome State Fault Refusal := .next (s.doorbell r false)

/-- DOORBELL_RANGE (R123). -/
def execDoorbellRange (r : DbReq) (s : State) : Host.Outcome State Fault Refusal := .next (s.doorbell r true)

/-- DOORBELL_READ (R21): a request without strobes, which no format admits. -/
def execDoorbellRead (r : DbReq) (s : State) : Host.Outcome State Fault Refusal :=
  .next (s.doorbell { r with strb := 0 } false)

/-- WINDOW_ENTRY_GRANT (R130, R142): writes and link frames that waited for an entry. -/
def execWindowEntryGrant (s : State) : Host.Outcome State Fault Refusal := .next s.pumpDb.pumpLinks

/-- ADMISSION_CYCLE (R138). -/
def execAdmissionCycle (s : State) : Host.Outcome State Fault Refusal := .next (s.inService dCFL State.admission)

/-- SPILLWAY_RELEASE (R136). -/
def execSpillwayRelease (s : State) : Host.Outcome State Fault Refusal := .next (s.inService dCFL State.spillRelease)

/-- STARVATION_GUARD (R285). -/
def execStarvationGuard (s : State) : Host.Outcome State Fault Refusal := .next (s.inService dCFL State.guardSlot)

/-- The compare of the sovereign resolver's two copies for a firing of sources 0 to 15: a mismatch is a compare failure
of the Weir, and the firing is resolved in any case (R198, R199, R463). -/
def State.resolverChecked (s : State) (c : Compare) : State :=
  if s.cfl.res.head?.any fun f => f.src < 16 then s.compared c s.now id else s

/-- FIRING_RESOLUTION (R149). -/
def execFiringResolution (r : Resolution) (s : State) : Host.Outcome State Fault Refusal :=
  .next (if s.serving then (s.resolverChecked r.cmp).resolveNext r.acc else s)

/-- WEIR_PASS (R182). -/
def execWeirPass (o : PassOp) (s : State) : Host.Outcome State Fault Refusal :=
  .next ((s.errorsCome o.upsets).passNow o.cmp o.owner.toNat o.head)

/-- WHEEL_SLOT_VISIT (R188). -/
def execWheelSlotVisit (v : SlotVisit) (s : State) : Host.Outcome State Fault Refusal :=
  .next (s.slotVisit v.slot.toNat v.acc v.cmp)

/-- PRESENT (R223). -/
def execPresent (n : BitVec 4) (s : State) : Host.Outcome State Fault Refusal := .next (s.presentTransfers n.toNat)

/-- REVOKE (R225). -/
def execRevoke (n : BitVec 4) (s : State) : Host.Outcome State Fault Refusal := .next (s.revokeTransfers n.toNat)

/-- TAKE (R232, R237). -/
def execTake (u : UpMsg) (s : State) : Host.Outcome State Fault Refusal := .next (s.upstream u 1)

/-- DECLINE (R232, R243). -/
def execDecline (u : UpMsg) (s : State) : Host.Outcome State Fault Refusal := .next (s.upstream u 2)

/-- COMPLETE (R236). -/
def execComplete (u : UpMsg) (s : State) : Host.Outcome State Fault Refusal := .next (s.upstream u 3)

/-- DECLINE_HOLD_EXPIRY (R243). -/
def execDeclineHoldExpiry (c : BitVec 10) (s : State) : Host.Outcome State Fault Refusal :=
  .next (s.unlessFatal fun t => t.holdExpires c.toNat)

/-- WINDOWED_MASK_EXPIRY (R151, R241). -/
def execWindowedMaskExpiry (src : BitVec 21) (s : State) : Host.Outcome State Fault Refusal :=
  .next (s.unlessFatal fun t => t.maskExpires src.toNat)

/-- PRESENTATION_TIMEOUT (R245). -/
def execPresentationTimeout (c : BitVec 10) (s : State) : Host.Outcome State Fault Refusal :=
  .next (s.unlessFatal fun t => t.presTimeout c.toNat)

/-- PRESENTATION_RETIRE (R246). -/
def execPresentationRetire (c : BitVec 10) (s : State) : Host.Outcome State Fault Refusal :=
  .next (s.unlessFatal fun t => t.presRetire c.toNat)

/-- RETIRED_TAG_FREE (R246). -/
def execRetiredTagFree (n : BitVec 4) (tag : BitVec 12) (s : State) : Host.Outcome State Fault Refusal :=
  .next (s.freeRetired n.toNat tag.toNat)

/-- DOWNSTREAM_STALL (R247). -/
def execDownstreamStall (n : BitVec 4) (s : State) : Host.Outcome State Fault Refusal := .next (s.stall n.toNat)

/-- LOG_WRITE_RESPONSE (R173). -/
def execLogWriteResponse (m : MemEnd) (s : State) : Host.Outcome State Fault Refusal := .next (s.logResponse m)

/-- LOG_BASE_SWITCH (R174). -/
def execLogBaseSwitch (slice : BitVec 12) (s : State) : Host.Outcome State Fault Refusal :=
  .next (s.logSwitch slice.toNat)

end Sys2Proof.Machine
end

