-- ==== Sys2Proof/Machine/CascadeCmds.lean ====
section
/-!
DEFINITION. What arrives on the link ports and what the cascade layer does by time: lane events that can take a port
DOWN, authentication, E2E frames, topology, summaries, alarms, batches (R303 to R315, R333 to R366).
-/

namespace Sys2Proof.Machine

/-! ### Where a frame arrives -/

/-- A frame of a port: discarded and counted after a FATAL reaction, received while the port is UP (R366, R437). -/
def State.frameOn (s : State) (p : Nat) (f : State → State) : State :=
  if s.fatal.inSeq then s.late else if (s.lport p).state = .up then f s else s

/-- A frame that has come over some port. -/
def State.frameIn (s : State) (f : State → State) : State :=
  if s.fatal.inSeq then s.late else if s.upPorts.isEmpty then s else f s

/-- An EVENT, PROXY or PRET frame. -/
def State.e2eIn (s : State) (h : RxHdr) (b : FrameBody) : State := s.frameIn fun t => t.receive h b

/-- A duty of a device with a cascade role (R332). -/
def State.inCascade (s : State) (f : State → State) : State :=
  if s.cas.role = 0 || s.fatal.inSeq then s else f s

/-! ### Topology (R69, R334, R350) -/

/-- DISCOVER: the headwater is learned, the frame flooded on, and this device reports. -/
def State.discovered (s : State) (p : Nat) (m : TopoMsg) : State :=
  let t := if s.mustFollow m && m.hw.toNat ≠ s.dev then
      s.onCas fun c => { c with epoch := m.epoch.toNat, hwdev := m.hw.toNat }
    else s
  (t.topoOn p 1 m).sendReport

/-- REPORT: once every device has reported itself aligned the headwater sends the cascade-ready notice, not before its own
step 13. The model's choice: how a REPORT says that its sender is aligned is an operand of the command (DESIGN CHOICE,
assumption log entry 98). -/
def State.reported (s : State) (org : Nat) (serial : BitVec 96) (pairings : BitVec 32) (al : Bool) : State :=
  let t := s.report org serial pairings al
  if al && t.cas.role = 2 && t.allAligned && (t.boot.mode ≠ .starting || t.boot.step = 13) then t.sendNotice.noticeReady
  else t

/-! ### Time (R259, R264, R338) -/

/-- The exchange that a warm start waits for has been made over the upstream port (R74 step 4). -/
def State.checked (s before : State) (p : Nat) (m : MarkerMsg) : State :=
  if before.atCheck && before.awaitsCheck && before.tb.uport = p && (before.mark p).pending = some m &&
      (before.exchange p m).isSome then s.joined
  else s.checkOver

/-- TIME (R338). -/
def execTime (p : BitVec 2) (m : MarkerMsg) (s : State) : Host.Outcome State Fault Refusal :=
  .next ((s.timeHeard p.toNat m).checked s p.toNat m)

/-- MARKER_LOSS_TIMEOUT (R264, R267). -/
def execMarkerLossTimeout (s : State) : Host.Outcome State Fault Refusal := .next s.markersStopped.checkOver

/-! ### Quarantine -/

/-- QUARANTINE from the partner (R366). -/
def State.partnerQuarantine (s : State) (p : Nat) : State :=
  (s.frameOn p fun t => (t.portQuarantine p).linkChanged).checkOver

/-! ### Lane events -/

/-- A lane event, which can end the training or authentication that a start waits for (R61, R63). -/
def State.laneEvent (s : State) (p : Nat) (f : State → State) : State := (f s).portSettled s p

/-- LANE_LOSS (R306). -/
def execLaneLoss (x : LaneLost) (s : State) : Host.Outcome State Fault Refusal :=
  .next (s.laneEvent (x.lane.toNat / 4) fun t => t.lossEvent x.lane.toNat x.why)

/-- TS (R307). -/
def execTs (l : BitVec 4) (m : TsMsg) (s : State) : Host.Outcome State Fault Refusal :=
  .next (s.laneEvent (l.toNat / 4) fun t => t.tsHeard l.toNat m)

/-- TRAINING_ATTEMPT_END (R308). -/
def execTrainingAttemptEnd (l : BitVec 4) (r : Attempt) (c : LaneCodes) (s : State) :
    Host.Outcome State Fault Refusal :=
  .next (s.laneEvent (l.toNat / 4) fun t => t.attemptEnd l.toNat r c)

/-- FAILED_LANE_RETRY (R308). -/
def execFailedLaneRetry (l : BitVec 4) (s : State) : Host.Outcome State Fault Refusal :=
  .next (s.laneEvent (l.toNat / 4) fun t => t.retryLane l.toNat)

/-- DRIFT_GUARD (R311). -/
def execDriftGuard (l : BitVec 4) (c : LaneCodes) (s : State) : Host.Outcome State Fault Refusal :=
  .next (s.laneEvent (l.toNat / 4) fun t => t.drift l.toNat c)

/-- LANE_DOWN (R314). -/
def execLaneDown (p k reason : BitVec 2) (mask : BitVec 4) (s : State) : Host.Outcome State Fault Refusal :=
  .next (s.laneEvent p.toNat fun t => t.laneDowned p.toNat k.toNat (OutReason.ofCode reason.toNat) mask)

/-- DOWN_ACK_TIMEOUT (R315). -/
def execDownAckTimeout (p : BitVec 2) (s : State) : Host.Outcome State Fault Refusal :=
  .next (s.laneEvent p.toNat fun t => t.downLost p.toNat)

/-- IDLE_EXIT_TIMEOUT (R313). -/
def execIdleExitTimeout (p : BitVec 2) (s : State) : Host.Outcome State Fault Refusal :=
  .next (s.laneEvent p.toNat fun t => t.idleExitLost p.toNat)

/-- PORT_RETRY (R348). -/
def execPortRetry (p : BitVec 2) (s : State) : Host.Outcome State Fault Refusal :=
  .next (s.laneEvent p.toNat fun t => t.retryPort p.toNat)

/-! ### E2E frames -/

/-- EVENT (R356). -/
def execEvent (h : RxHdr) (stamp : BitVec 64) (gsrc : BitVec 24) (kind : BitVec 8) (proxy : BitVec 14) (s : State) :
    Host.Outcome State Fault Refusal :=
  .next (s.e2eIn h (.event stamp gsrc kind proxy))

/-- PROXY_OPEN (R354). -/
def execProxyOpen (h : RxHdr) (gsrc : BitVec 24) (entry : BitVec 64) (stamp : BitVec 32) (flags : BitVec 8)
    (s : State) : Host.Outcome State Fault Refusal :=
  .next (s.e2eIn h (.proxy 1 gsrc entry stamp flags 0))

/-- PROXY_CFG (R355). -/
def execProxyCfg (h : RxHdr) (gsrc : BitVec 24) (entry : BitVec 64) (proxy : BitVec 14) (s : State) :
    Host.Outcome State Fault Refusal :=
  .next (s.e2eIn h (.proxy 2 gsrc entry 0 0 proxy))

/-- PROXY_CLOSE (R358). -/
def execProxyClose (h : RxHdr) (gsrc : BitVec 24) (proxy : BitVec 14) (s : State) :
    Host.Outcome State Fault Refusal :=
  .next (s.e2eIn h (.proxy 3 gsrc 0 0 0 proxy))

/-- PROXY_CLOSE_DISCARD (R358). -/
def execProxyCloseDiscard (h : RxHdr) (gsrc : BitVec 24) (proxy : BitVec 14) (s : State) :
    Host.Outcome State Fault Refusal :=
  .next (s.e2eIn h (.proxy 4 gsrc 0 0 0 proxy))

/-- PROXY_HANDOFF (R361). -/
def execProxyHandoff (h : RxHdr) (gsrc : BitVec 24) (entry : BitVec 64) (stamp : BitVec 32) (flags : BitVec 8)
    (s : State) : Host.Outcome State Fault Refusal :=
  .next (s.e2eIn h (.proxy 5 gsrc entry stamp flags 0))

/-- HANDOFF_SELECT_TIMEOUT (R361). -/
def execHandoffSelectTimeout (proxy : BitVec 14) (s : State) : Host.Outcome State Fault Refusal :=
  .next (s.inCascade fun t => match t.proxySrc proxy.toNat with
    | some n => t.handoffBack n
    | none => t)

/-- OPENED (R354). -/
def execOpened (h : RxHdr) (gsrc : BitVec 24) (proxy : BitVec 14) (s : State) : Host.Outcome State Fault Refusal :=
  .next (s.e2eIn h (.pret 1 0 gsrc proxy 0 0))

/-- REFUSED (R354, R356). -/
def execRefused (h : RxHdr) (gsrc : BitVec 24) (cause : BitVec 8) (proxy : BitVec 14) (s : State) :
    Host.Outcome State Fault Refusal :=
  .next (s.e2eIn h (.pret 2 cause gsrc proxy 0 0))

/-- RETURNED (R358, R361). -/
def execReturned (h : RxHdr) (gsrc : BitVec 24) (proxy : BitVec 14) (stamp : BitVec 32) (flags : BitVec 8)
    (s : State) : Host.Outcome State Fault Refusal :=
  .next (s.e2eIn h (.pret 3 0 gsrc proxy stamp flags))

/-- HANDBACK (R361). -/
def execHandback (h : RxHdr) (gsrc : BitVec 24) (proxy : BitVec 14) (stamp : BitVec 32) (flags : BitVec 8)
    (s : State) : Host.Outcome State Fault Refusal :=
  .next (s.e2eIn h (.pret 4 0 gsrc proxy stamp flags))

/-- ACK (R341). -/
def execAck (org : BitVec 3) (e2eAck : BitVec 16) (s : State) : Host.Outcome State Fault Refusal :=
  .next (s.frameIn fun t => t.e2eAcked org.toNat e2eAck.toNat)

/-! ### Summaries and alarms -/

/-- SUMMARY_SEND (R359). -/
def execSummarySend (s : State) : Host.Outcome State Fault Refusal := .next (s.inCascade State.summarySend)

/-- SUMMARY (R360). -/
def execSummary (p : BitVec 2) (org : BitVec 3) (entries : List (BitVec 20)) (s : State) :
    Host.Outcome State Fault Refusal :=
  .next (s.frameOn p.toNat fun t => t.summaryHeard p.toNat org.toNat entries)

/-- ALARM (R363, R364). -/
def execAlarm (p : BitVec 2) (stamp : BitVec 64) (org : BitVec 3) (line : BitVec 5) (token : BitVec 96) (s : State) :
    Host.Outcome State Fault Refusal :=
  .next (s.alarmHeard p.toNat stamp org line token)

/-- QUARANTINE_ALARM_REPEAT (R366). -/
def execQuarantineAlarmRepeat (p : BitVec 2) (s : State) : Host.Outcome State Fault Refusal :=
  .next (s.inCascade fun t => t.alarmRepeat p.toNat)

/-! ### Topology -/

/-- TOPO_DISCOVER (R69, R350). -/
def execTopoDiscover (p : BitVec 2) (m : TopoMsg) (s : State) : Host.Outcome State Fault Refusal :=
  .next (s.frameOn p.toNat fun t => t.discovered p.toNat m)

/-- TOPO_REPORT (R334, R350). -/
def execTopoReport (org : BitVec 3) (serial : BitVec 96) (pairings : BitVec 32) (aligned : Bool) (s : State) :
    Host.Outcome State Fault Refusal :=
  .next (s.frameIn fun t => t.reported org.toNat serial pairings aligned)

/-- TOPO_READY (R69). -/
def execTopoReady (p : BitVec 2) (m : TopoMsg) (s : State) : Host.Outcome State Fault Refusal :=
  .next (s.frameOn p.toNat fun t => (t.topoOn p.toNat 3 m).noticeReady)

/-- HEARTBEAT_SEND (R350). -/
def execHeartbeatSend (s : State) : Host.Outcome State Fault Refusal := .next (s.inCascade State.heartbeat)

/-- TOPO_HEARTBEAT (R349, R352). -/
def execTopoHeartbeat (p : BitVec 2) (m : TopoMsg) (s : State) : Host.Outcome State Fault Refusal :=
  .next (s.frameOn p.toNat fun t => t.heard p.toNat m)

/-- HEADWATER_TAKEOVER (R351). -/
def execHeadwaterTakeover (s : State) : Host.Outcome State Fault Refusal := .next (s.inCascade State.takeover)

/-- TOPO_MAP (R341). -/
def execTopoMap (p : BitVec 2) (m : TopoMsg) (s : State) : Host.Outcome State Fault Refusal :=
  .next (s.frameOn p.toNat fun t => t.newMap p.toNat m)

/-- TOPO_EXCLUDE (R334). -/
def execTopoExclude (_m : TopoMsg) (s : State) : Host.Outcome State Fault Refusal :=
  .next (s.frameIn fun t => t.exclude.readyAlone)

/-- TOPO_QUARANTINE (R366). -/
def execTopoQuarantine (p : BitVec 2) (s : State) : Host.Outcome State Fault Refusal :=
  .next (s.partnerQuarantine p.toNat)

/-! ### Batches and replay -/

/-- BATCH_CLOSE (R346). -/
def execBatchClose (p : BitVec 2) (s : State) : Host.Outcome State Fault Refusal := .next (s.closeBatch p.toNat)

/-- BATCH_TAG (R340, R347). -/
def execBatchTag (p : BitVec 2) (frames : List RxFrame) (mac : BitVec 96) (first : BitVec 12) (count : BitVec 8)
    (s : State) : Host.Outcome State Fault Refusal :=
  .next (s.unlessFatal fun t => t.batchTag p.toNat frames mac first count)

/-- REPLAY_TIMEOUT (R340). -/
def execReplayTimeout (p : BitVec 2) (s : State) : Host.Outcome State Fault Refusal :=
  .next (s.laneEvent p.toNat fun t => t.replayStall p.toNat)

/-! ### Authentication -/

/-- A message of an authentication: discarded and counted after a FATAL reaction (R437). -/
def State.authIn (s : State) (p : Nat) (f : State → State) : State :=
  if s.fatal.inSeq then s.late else s.laneEvent p f

/-- HELLO (R333, R342). -/
def execHello (p : BitVec 2) (m : HelloMsg) (s : State) : Host.Outcome State Fault Refusal :=
  .next (s.authIn p.toNat fun t => t.helloHeard p.toNat m)

/-- CERT (R343). -/
def execCert (p : BitVec 2) (m : CertMsg) (s : State) : Host.Outcome State Fault Refusal :=
  .next (s.authIn p.toNat fun t => t.certHeard p.toNat m)

/-- KEYX (R344). -/
def execKeyx (p : BitVec 2) (m : KeyxMsg) (s : State) : Host.Outcome State Fault Refusal :=
  .next (s.authIn p.toNat fun t => t.keyxHeard p.toNat m)

/-- CONFIRM (R345). -/
def execConfirm (p : BitVec 2) (ok : Bool) (s : State) : Host.Outcome State Fault Refusal :=
  .next (s.authIn p.toNat fun t => t.confirmHeard p.toNat ok)

end Sys2Proof.Machine
end

