-- ==== Sys2Proof/Machine/Dump.lean ====
section
/-!
DEFINITION. What a fatal dump writes, and in which order: header, descriptors and sections as the state stands when it
is taken (R437, R439, R440).
-/

namespace Sys2Proof.Machine

/-! ### Sections (R440) -/

/-- A section: TYPE, RSIZE and its bytes. -/
structure DumpSec where
  type  : Nat
  rsize : Nat
  bytes : List (BitVec 8)
  deriving DecidableEq, Repr

/-- A register record: offset, selector, value. -/
def dumpReg (offset sel : Nat) (v : BitVec 64) : List (BitVec 8) := natLE 4 offset ++ natLE 1 sel ++ natLE 3 0 ++ bytesLE 8 v

/-- A read by the steward, which clears nothing (R434). -/
def dumpAcc (r : Reg) : Acc := accReg false { world := true, pid := 0, tag := 0, page := none } r .full 0

/-- Registers of the global, power, safety and timebase windows, then of each port and each lane. -/
def State.dumpRegs (s : State) : List (BitVec 8) :=
  ([0, 6, 7, 8].flatMap fun w => (windowSlots w).flatMap fun p =>
    dumpReg p.1 0xFF ((s.regValue (dumpAcc p.2.1) p.2.1).getD 0)) ++
  ((List.range 4).flatMap fun p =>
    dumpReg 0x5040 p (s.lport p).word ++ dumpReg 0x5048 p ((s.lauthOf p).word 0) ++
      dumpReg 0x5050 p ((s.lauthOf p).word 1)) ++
  (List.range 16).flatMap fun l => dumpReg 0x5020 l (s.laneSt l) ++ dumpReg 0x5028 l (s.lcnt l).word

/-- The error log from TAIL onward. -/
def State.dumpLog (s : State) : List (BitVec 8) :=
  (List.range 256).flatMap fun i =>
    let r := SMap.get (0, 0) s.saf.log ((s.saf.tail + i) % 256)
    bytesLE 8 r.1 ++ bytesLE 8 r.2

/-- A context record. -/
def State.dumpCtx (s : State) (c : Nat) : List (BitVec 8) :=
  let x := s.ctx c
  let a := dumpAcc .tgtPres
  bytesLE 8 (s.tgtRun c) ++ bytesLE 8 (s.tgtPres a c) ++ bytesLE 8 (w64 x.vbase) ++
    bytesLE 8 (x.dlvCfg ||| pack [(32, 1, b2n x.grpOut)]) ++
    ((List.range 3).flatMap fun n => bytesLE 8 (x.cnt.word n)) ++ natLE 8 0 ++
    (List.range 16).flatMap fun i => bytesLE 8 (s.stkWord a c i)

/-- A group record. -/
def Grp.dump (g : Grp) : List (BitVec 8) :=
  bytesLE 8 g.cfg ++ bytesLE 8 g.st ++ (List.range 64).flatMap fun i => natLE 2 (fld (g.mdata i) 0 13)

/-- A slice record. -/
def State.dumpSlc (s : State) (i : Nat) : List (BitVec 8) :=
  let x := s.slc i
  [s.slcStWord i, s.slcInfoWord i, x.live.word, s.slcSpillWord i, pairWord (x.cnt.dlMissed, x.cnt.dlProm), x.cnt.cpl,
    x.log.head, x.log.st].flatMap (bytesLE 8)

/-- A window entry's record; one that is free is zero. -/
def winRec (w : Option WinEnt) : List (BitVec 8) :=
  match w with
  | some w =>
    bytesLE 8 w.stamp ++ bytesLE 4 (pack [(31, 1, 1), (30, 1, b2n w.express), (29, 1, b2n w.spilled), (26, 3, w.origin),
      (0, 21, w.src)]) ++ natLE 4 (w.slice % 4096)
  | none => natLE 16 0

/-- A record of the Queue Head Table: the occupancy map, the sovereign map, and head and tail of each priority. -/
def State.dumpQueue (s : State) (o : Nat) : List (BitVec 8) :=
  let q (p : Nat) := s.queue o p
  natLE 32 ((List.range 256).foldl (fun v p => v + if (q p).isEmpty then 0 else 2 ^ p) 0) ++
    natLE 32 (s.ownerQ o).sov.toNat ++
    (List.range 256).flatMap fun p =>
      bytesLE 8 (pack [(0, 21, (q p).headD 0), (32, 21, (q p).getLastD 0)])

/-- A row's status byte of one array: bit 2 that it is not rebuilt yet; what the dump's reads find is a free value
(assumption log entry 1). -/
def State.dumpRow (s : State) (pla : Bool) (row : Nat) : Nat :=
  let x := s.stripe pla
  Config.rowFound (2 * row + b2n pla) % 4 + 4 * b2n (x.rebuildRuns && x.rebuildRow ≤ row)

/-- The sections 0x01 to 0x09 and the steward's. -/
def State.dumpBase (s : State) : List DumpSec :=
  [⟨0x01, 16, s.dumpRegs⟩, ⟨0x02, 16, s.dumpLog⟩,
   ⟨0x03, 4, (List.range 64).flatMap fun k => natLE 4 (SMap.get 0 s.saf.cls k)⟩,
   ⟨0x04, 4, (List.range 64).flatMap fun i => bytesLE 4 ((s.boot.log[i]?).elim 0 LogEntry.word)⟩,
   ⟨0x05, 192, (List.range 1024).flatMap s.dumpCtx⟩, ⟨0x06, 144, (List.range 512).flatMap fun g => (s.grp g).dump⟩,
   ⟨0x07, 64, (List.range 4096).flatMap s.dumpSlc⟩,
   ⟨0x08, 16, (List.range 8192).flatMap fun i => winRec s.cfl.window[i]?⟩,
   ⟨0x09, 16, (List.range 4096).flatMap fun i =>
      bytesLE 8 ((s.trace[i]?).getD (0, 0)).1 ++ bytesLE 8 ((s.trace[i]?).getD (0, 0)).2⟩,
   ⟨0x0A, 1, (List.range s.stewardLen).map Config.stewardByte⟩]

/-- The array sections. -/
def State.dumpArrays (s : State) : List DumpSec :=
  [⟨0x10, 8, (List.range 2097152).flatMap fun n => bytesLE 8 (s.entry n).toWord⟩,
   ⟨0x11, 8, (List.range 2097152).flatMap fun n => bytesLE 8 (s.plaOf n).toWord⟩,
   ⟨0x12, 2112, (List.range 1536).flatMap s.dumpQueue⟩,
   ⟨0x13, 2, (List.range 65536).flatMap fun r => natLE 1 (s.dumpRow false r) ++ natLE 1 (s.dumpRow true r)⟩]

/-- The sections of a dump, in ascending TYPE. -/
def State.dumpSecs (s : State) : List DumpSec := s.dumpBase ++ if s.dumpsArrays then s.dumpArrays else []

/-! ### The layout (R439) -/

/-- Sections at their offsets, each on a 4 KiB boundary. -/
def placeSecs : Nat → List DumpSec → List (Nat × DumpSec)
  | _, [] => []
  | o, x :: l => (o, x) :: placeSecs ((o + x.bytes.length + 4095) / 4096 * 4096) l

/-- A descriptor. -/
def dumpDesc (p : Nat × DumpSec) : List (BitVec 8) :=
  natLE 1 p.2.type ++ natLE 1 1 ++ natLE 2 p.2.rsize ++ natLE 4 p.1 ++ natLE 4 p.2.bytes.length ++
    bytesLE 4 (crc32 p.2.bytes)

/-- The header without its CRC. -/
def State.dumpHead (s : State) (nsect len : Nat) : List (BitVec 8) :=
  natLE 4 0x504D5544 ++ natLE 2 1 ++ natLE 1 (b2n s.dumpsArrays) ++ natLE 1 nsect ++ natLE 4 len ++ natLE 2 hwver ++
    natLE 1 s.dev ++ natLE 1 (s.straps.lcs + 128 * b2n (s.keys.root = 3)) ++ bytesLE 8 s.fatal.tick ++
    natLE 1 s.fatal.cls ++ natLE 1 s.lev.cur ++ natLE 2 s.boot.bootcnt ++ natLE 4 s.fatal.late ++
    bytesLE 48 s.img.digest ++ bytesLE 4 s.img.activeVer ++ bytesLE 4 s.img.stwVer ++ natLE 36 0

/-- The header. -/
def State.dumpHeader (s : State) (nsect len : Nat) : List (BitVec 8) :=
  s.dumpHead nsect len ++ bytesLE 4 (crc32 (s.dumpHead nsect len))

/-- The writes of a dump in their order, at offsets in the buffer: zeros, sections, descriptors, and the header with
MAGIC last (R437). -/
def State.dumpWrites (s : State) : List (Nat × List (BitVec 8)) :=
  let ps := placeSecs 4096 s.dumpSecs
  let len := match ps.getLast? with
    | some p => p.1 + p.2.bytes.length
    | none => 4096
  let h := s.dumpHeader ps.length len
  [(0, natLE 32 0)] ++ (ps.map fun p => (p.1, p.2.bytes)) ++ [(0x80, ps.flatMap dumpDesc), (4, h.drop 4), (0, h.take 4)]

/-- The memory port carries the dump, or its first write where a FAULT ends it; without a dump nothing (R28, R29,
R437). -/
def State.dumpMem (s : State) (out : Nat) : State :=
  let ws := if out = 0 || out = 1 then s.dumpWrites else if out = 4 then s.dumpWrites.take 1 else []
  ws.foldl (fun t w => t.stwRequest true (s.fatal.dumpAddr + BitVec.ofNat 48 w.1) w.2.length w.2) s

/-- The dump has ended: its boot log entry, and HALTED (R402, R438). -/
def State.dumpEnd (s : State) (m : MemEnd) (cycles : Nat) : State :=
  if s.fatal.inSeq && s.boot.mode ≠ .halted then
    (((s.dumpMem (s.dumpOutcome m)).bootLog 0x1D (s.dumpOutcome m) cycles).onBoot fun b => { b with mode := .halted }).drawn
  else s

/-- FATAL_DUMP_END (R438). -/
def execFatalDumpEnd (m : MemEnd) (cycles : BitVec 23) (s : State) : Host.Outcome State Fault Refusal :=
  .next (s.dumpEnd m cycles.toNat)

end Sys2Proof.Machine
end

