-- ==== Sys2Proof/Machine/Dispatch.lean ====
section
/-! DEFINITION. The dispatcher: one arm per command, each a direct call of its meaning. -/

namespace Sys2Proof.Machine

/-- The effect of a command on everything but the queue. -/
def exec (i : Instr) (s : State) : Host.Outcome State Fault Refusal :=
  match i with
  | .aoPowerOn => Sys2Proof.Machine.execAoPowerOn s
  | .coldReset width => Sys2Proof.Machine.execColdReset width s
  | .coldStart e => Sys2Proof.Machine.execColdStart e s
  | .cascadeJoinTimeout => Sys2Proof.Machine.execCascadeJoinTimeout s
  | .warmReset width => Sys2Proof.Machine.execWarmReset width s
  | .warmResetRelease t => Sys2Proof.Machine.execWarmResetRelease t s
  | .portReset n => Sys2Proof.Machine.execPortReset n s
  | .portResetRelease n => Sys2Proof.Machine.execPortResetRelease n s
  | .awakeChange n mask => Sys2Proof.Machine.execAwakeChange n mask s
  | .clockFault clk stopped => Sys2Proof.Machine.execClockFault clk stopped s
  | .debugEnableChange en => Sys2Proof.Machine.execDebugEnableChange en s
  | .doorbellSingle r => Sys2Proof.Machine.execDoorbellSingle r s
  | .doorbellRange r => Sys2Proof.Machine.execDoorbellRange r s
  | .doorbellRead r => Sys2Proof.Machine.execDoorbellRead r s
  | .windowEntryGrant => Sys2Proof.Machine.execWindowEntryGrant s
  | .admissionCycle => Sys2Proof.Machine.execAdmissionCycle s
  | .spillwayRelease => Sys2Proof.Machine.execSpillwayRelease s
  | .starvationGuard => Sys2Proof.Machine.execStarvationGuard s
  | .firingResolution r => Sys2Proof.Machine.execFiringResolution r s
  | .wiredCapture line level => Sys2Proof.Machine.execWiredCapture line level s
  | .dormantWakeLatch w refclk => Sys2Proof.Machine.execDormantWakeLatch w refclk s
  | .srcFire r => Sys2Proof.Machine.execSrcFire r s
  | .srcCfgLoWrite r v => Sys2Proof.Machine.execSrcCfgLoWrite r v s
  | .srcCfgCommit r d => Sys2Proof.Machine.execSrcCfgCommit r d s
  | .srcEnWrite r en => Sys2Proof.Machine.execSrcEnWrite r en s
  | .selSrcWrite r v => Sys2Proof.Machine.execSelSrcWrite r v s
  | .selTgtWrite r v => Sys2Proof.Machine.execSelTgtWrite r v s
  | .selLaneWrite r v => Sys2Proof.Machine.execSelLaneWrite r v s
  | .tgtDlvCfgWrite r v => Sys2Proof.Machine.execTgtDlvCfgWrite r v s
  | .groupMemberAdd r m => Sys2Proof.Machine.execGroupMemberAdd r m s
  | .groupMemberRemove r m => Sys2Proof.Machine.execGroupMemberRemove r m s
  | .smapLookup r pid => Sys2Proof.Machine.execSmapLookup r pid s
  | .tbCountRead r part => Sys2Proof.Machine.execTbCountRead r part s
  | .registerWrite q => Sys2Proof.Machine.execRegisterWrite q s
  | .weirPass o => Sys2Proof.Machine.execWeirPass o s
  | .weirSelftestEnd aPass bPass => Sys2Proof.Machine.execWeirSelftestEnd aPass bPass s
  | .shadowCheck ctx agree => Sys2Proof.Machine.execShadowCheck ctx agree s
  | .linkStoreRebuildEnd => Sys2Proof.Machine.execLinkStoreRebuildEnd s
  | .wheelSlotVisit v => Sys2Proof.Machine.execWheelSlotVisit v s
  | .present n => Sys2Proof.Machine.execPresent n s
  | .revoke n => Sys2Proof.Machine.execRevoke n s
  | .take u => Sys2Proof.Machine.execTake u s
  | .decline u => Sys2Proof.Machine.execDecline u s
  | .complete u => Sys2Proof.Machine.execComplete u s
  | .declineHoldExpiry c => Sys2Proof.Machine.execDeclineHoldExpiry c s
  | .windowedMaskExpiry src => Sys2Proof.Machine.execWindowedMaskExpiry src s
  | .presentationTimeout c => Sys2Proof.Machine.execPresentationTimeout c s
  | .presentationRetire c => Sys2Proof.Machine.execPresentationRetire c s
  | .retiredTagFree n tag => Sys2Proof.Machine.execRetiredTagFree n tag s
  | .downstreamStall n => Sys2Proof.Machine.execDownstreamStall n s
  | .scrubStep ssa pla => Sys2Proof.Machine.execScrubStep ssa pla s
  | .rebuildStep pla => Sys2Proof.Machine.execRebuildStep pla s
  | .fatalDumpEnd m cycles => Sys2Proof.Machine.execFatalDumpEnd m cycles s
  | .logWriteResponse m => Sys2Proof.Machine.execLogWriteResponse m s
  | .slcLogBaseWrite r v => Sys2Proof.Machine.execSlcLogBaseWrite r v s
  | .logBaseSwitch slice => Sys2Proof.Machine.execLogBaseSwitch slice s
  | .stage r => Sys2Proof.Machine.execStage r s
  | .stagingEnd r => Sys2Proof.Machine.execStagingEnd r s
  | .commit r => Sys2Proof.Machine.execCommit r s
  | .discard r => Sys2Proof.Machine.execDiscard r s
  | .structureEpoch => Sys2Proof.Machine.execStructureEpoch s
  | .shareCommit r => Sys2Proof.Machine.execShareCommit r s
  | .creditEpoch => Sys2Proof.Machine.execCreditEpoch s
  | .activate r => Sys2Proof.Machine.execActivate r s
  | .quiesce r => Sys2Proof.Machine.execQuiesce r s
  | .quiesceDrainComplete slice => Sys2Proof.Machine.execQuiesceDrainComplete slice s
  | .reset r => Sys2Proof.Machine.execReset r s
  | .forceReset r => Sys2Proof.Machine.execForceReset r s
  | .slicePurgeEnd slice => Sys2Proof.Machine.execSlicePurgeEnd slice s
  | .freeze r => Sys2Proof.Machine.execFreeze r s
  | .save r => Sys2Proof.Machine.execSave r s
  | .saveEnd slice m => Sys2Proof.Machine.execSaveEnd slice m s
  | .restore r => Sys2Proof.Machine.execRestore r s
  | .restoreEnd slice r => Sys2Proof.Machine.execRestoreEnd slice r s
  | .thaw r => Sys2Proof.Machine.execThaw r s
  | .load k beats => Sys2Proof.Machine.execLoad k beats s
  | .invalidateSlot slot beats => Sys2Proof.Machine.execInvalidateSlot slot beats s
  | .invalidateRoot beats => Sys2Proof.Machine.execInvalidateRoot beats s
  | .keyStoreCommitEnd => Sys2Proof.Machine.execKeyStoreCommitEnd s
  | .stewardWatchdogExpiry => Sys2Proof.Machine.execStewardWatchdogExpiry s
  | .safSigClear r v => Sys2Proof.Machine.execSafSigClear r v s
  | .safTmrWrite r v => Sys2Proof.Machine.execSafTmrWrite r v s
  | .logTailWrite r v => Sys2Proof.Machine.execLogTailWrite r v s
  | .traceRd idx => Sys2Proof.Machine.execTraceRd idx s
  | .cntRd c => Sys2Proof.Machine.execCntRd c s
  | .stwHalt => Sys2Proof.Machine.execStwHalt s
  | .stwStep => Sys2Proof.Machine.execStwStep s
  | .aryRd pla src => Sys2Proof.Machine.execAryRd pla src s
  | .aryWr pla src v => Sys2Proof.Machine.execAryWr pla src v s
  | .mailboxClaim r => Sys2Proof.Machine.execMailboxClaim r s
  | .mailboxRelease r => Sys2Proof.Machine.execMailboxRelease r s
  | .versions r => Sys2Proof.Machine.execVersions r s
  | .attest r => Sys2Proof.Machine.execAttest r s
  | .certs r => Sys2Proof.Machine.execCerts r s
  | .prodPubkey r => Sys2Proof.Machine.execProdPubkey r s
  | .mailboxCommandEnd e => Sys2Proof.Machine.execMailboxCommandEnd e s
  | .levelRequest r target => Sys2Proof.Machine.execLevelRequest r target s
  | .plFloorWrite r floor => Sys2Proof.Machine.execPlFloorWrite r floor s
  | .vgoodReturn ms => Sys2Proof.Machine.execVgoodReturn ms s
  | .vgoodTimeout => Sys2Proof.Machine.execVgoodTimeout s
  | .sleepRequest r v => Sys2Proof.Machine.execSleepRequest r v s
  | .domainVote d => Sys2Proof.Machine.execDomainVote d s
  | .prepareTimeout => Sys2Proof.Machine.execPrepareTimeout s
  | .pwrAck ack => Sys2Proof.Machine.execPwrAck ack s
  | .dozeRegate d => Sys2Proof.Machine.execDozeRegate d s
  | .domainWake ds => Sys2Proof.Machine.execDomainWake ds s
  | .wakeTimeout d => Sys2Proof.Machine.execWakeTimeout d s
  | .holdRelease r v => Sys2Proof.Machine.execHoldRelease r v s
  | .holdSet r v => Sys2Proof.Machine.execHoldSet r v s
  | .ageingReading m => Sys2Proof.Machine.execAgeingReading m s
  | .ageingRestep m => Sys2Proof.Machine.execAgeingRestep m s
  | .aoclkCalibration refCycles => Sys2Proof.Machine.execAoclkCalibration refCycles s
  | .markerSend p => Sys2Proof.Machine.execMarkerSend p s
  | .marker p m received => Sys2Proof.Machine.execMarker p m received s
  | .time p m => Sys2Proof.Machine.execTime p m s
  | .markerLossTimeout => Sys2Proof.Machine.execMarkerLossTimeout s
  | .holdoverExpiry => Sys2Proof.Machine.execHoldoverExpiry s
  | .pllLost => Sys2Proof.Machine.execPllLost s
  | .countMismatch good => Sys2Proof.Machine.execCountMismatch good s
  | .rateCheck ticks => Sys2Proof.Machine.execRateCheck ticks s
  | .laneLoss x => Sys2Proof.Machine.execLaneLoss x s
  | .ts l m => Sys2Proof.Machine.execTs l m s
  | .trainingAttemptEnd l r c => Sys2Proof.Machine.execTrainingAttemptEnd l r c s
  | .failedLaneRetry l => Sys2Proof.Machine.execFailedLaneRetry l s
  | .driftGuard l c => Sys2Proof.Machine.execDriftGuard l c s
  | .alignPeriod p => Sys2Proof.Machine.execAlignPeriod p s
  | .align p mask b => Sys2Proof.Machine.execAlign p mask b s
  | .laneDown p k reason mask => Sys2Proof.Machine.execLaneDown p k reason mask s
  | .downAck p mask => Sys2Proof.Machine.execDownAck p mask s
  | .laneDownRepeat p => Sys2Proof.Machine.execLaneDownRepeat p s
  | .downAckTimeout p => Sys2Proof.Machine.execDownAckTimeout p s
  | .up p k => Sys2Proof.Machine.execUp p k s
  | .electricalIdleEntry p => Sys2Proof.Machine.execElectricalIdleEntry p s
  | .eios p => Sys2Proof.Machine.execEios p s
  | .electricalIdleExit p => Sys2Proof.Machine.execElectricalIdleExit p s
  | .squelchBurst p => Sys2Proof.Machine.execSquelchBurst p s
  | .idleExitTimeout p => Sys2Proof.Machine.execIdleExitTimeout p s
  | .apply r => Sys2Proof.Machine.execApply r s
  | .retrain r => Sys2Proof.Machine.execRetrain r s
  | .injOne r => Sys2Proof.Machine.execInjOne r s
  | .prbsPeriodicInject l => Sys2Proof.Machine.execPrbsPeriodicInject l s
  | .prbsStatusRead r => Sys2Proof.Machine.execPrbsStatusRead r s
  | .event h stamp gsrc kind proxy => Sys2Proof.Machine.execEvent h stamp gsrc kind proxy s
  | .proxyOpen h gsrc entry stamp flags => Sys2Proof.Machine.execProxyOpen h gsrc entry stamp flags s
  | .proxyCfg h gsrc entry proxy => Sys2Proof.Machine.execProxyCfg h gsrc entry proxy s
  | .proxyClose h gsrc proxy => Sys2Proof.Machine.execProxyClose h gsrc proxy s
  | .proxyCloseDiscard h gsrc proxy => Sys2Proof.Machine.execProxyCloseDiscard h gsrc proxy s
  | .proxyHandoff h gsrc entry stamp flags => Sys2Proof.Machine.execProxyHandoff h gsrc entry stamp flags s
  | .handoffSelectTimeout proxy => Sys2Proof.Machine.execHandoffSelectTimeout proxy s
  | .opened h gsrc proxy => Sys2Proof.Machine.execOpened h gsrc proxy s
  | .refused h gsrc cause proxy => Sys2Proof.Machine.execRefused h gsrc cause proxy s
  | .returned h gsrc proxy stamp flags => Sys2Proof.Machine.execReturned h gsrc proxy stamp flags s
  | .handback h gsrc proxy stamp flags => Sys2Proof.Machine.execHandback h gsrc proxy stamp flags s
  | .summarySend => Sys2Proof.Machine.execSummarySend s
  | .summary p org entries => Sys2Proof.Machine.execSummary p org entries s
  | .alarm p stamp org line token => Sys2Proof.Machine.execAlarm p stamp org line token s
  | .quarantineAlarmRepeat p => Sys2Proof.Machine.execQuarantineAlarmRepeat p s
  | .topoDiscover p m => Sys2Proof.Machine.execTopoDiscover p m s
  | .topoReport org serial pairings aligned => Sys2Proof.Machine.execTopoReport org serial pairings aligned s
  | .topoReady p m => Sys2Proof.Machine.execTopoReady p m s
  | .heartbeatSend => Sys2Proof.Machine.execHeartbeatSend s
  | .topoHeartbeat p m => Sys2Proof.Machine.execTopoHeartbeat p m s
  | .headwaterTakeover => Sys2Proof.Machine.execHeadwaterTakeover s
  | .topoMap p m => Sys2Proof.Machine.execTopoMap p m s
  | .topoExclude m => Sys2Proof.Machine.execTopoExclude m s
  | .topoQuarantine p => Sys2Proof.Machine.execTopoQuarantine p s
  | .batchClose p => Sys2Proof.Machine.execBatchClose p s
  | .batchTag p frames mac first count => Sys2Proof.Machine.execBatchTag p frames mac first count s
  | .ack org e2eAck => Sys2Proof.Machine.execAck org e2eAck s
  | .replayTimeout p => Sys2Proof.Machine.execReplayTimeout p s
  | .hello p m => Sys2Proof.Machine.execHello p m s
  | .cert p m => Sys2Proof.Machine.execCert p m s
  | .keyx p m => Sys2Proof.Machine.execKeyx p m s
  | .confirm p ok => Sys2Proof.Machine.execConfirm p ok s
  | .portRetry p => Sys2Proof.Machine.execPortRetry p s
  | .one r => Sys2Proof.Machine.execOne r s
  | .registerRead q => Sys2Proof.Machine.execRegisterRead q s
  | .alwaysOnReset => Sys2Proof.Machine.execAlwaysOnReset s
  | .blockLock b => Sys2Proof.Machine.execBlockLock b s
  | .prbsSync b => Sys2Proof.Machine.execPrbsSync b s
  | .prbsSyncLoss b => Sys2Proof.Machine.execPrbsSyncLoss b s
  | .pllRelock => Sys2Proof.Machine.execPllRelock s
  | .testLogicReset => Sys2Proof.Machine.execTestLogicReset s

end Sys2Proof.Machine
end

