-- ==== Sys2Proof/Machine/Idle.lean ====
section
/-! DEFINITION. What passes when no command waits: time. -/

namespace Sys2Proof.Machine

/-- Phase steps of one tick of a slew: at most one tick is added or left out (R252, R261). -/
def slewStep (slew : Int) : Int := max (-64) (min 64 slew)

/-- The count over one tick of TBCLK: steered by phase steps of 1/64 tick (R251, R252, R261). -/
def Tb.tick (t : Tb) : Tb :=
  let k := slewStep t.slew
  let ph := (64 + t.phase + k).toNat
  { t with count := t.count + BitVec.ofNat 64 (ph / 64), phase := ph % 64, slew := t.slew - k }

/-- The count over one cycle of AOCLK at the AOCLK ratio (R254, R267). -/
def Tb.aoCycle (t : Tb) : Tb :=
  let v := t.aoFrac + t.aoRatio
  { t with count := t.count + BitVec.ofNat 64 (v / 1024), aoFrac := v % 1024 }

/-- One tick of the lane word clocks: a block period is 325/16 ticks, at whose end every port puts a block on each of
its lanes; one whose domain is not powered is still (R297, R302, R376). -/
def State.lineTick (s : State) : State :=
  if s.tb.blkPhase + 16 < 325 then s.onTb fun t => { t with blkPhase := t.blkPhase + 16 }
  else
    ((List.range 4).filter fun p => s.domSt (dLNK p) < 2).foldl (fun u p => u.portPeriod p)
      (s.onTb fun t => { t with blkPhase := t.blkPhase + 16 - 325 })

/-- Time passes while the timebase runs: one tick, or one AOCLK cycle while the count runs from AOCLK, without a lane
PLL (R251, R267). -/
def State.clockTick (s : State) : State :=
  if !s.tb.running then s
  else if s.tb.onAoclk then { s with tb := s.tb.aoCycle }
  else { s with tb := s.tb.tick }.lineTick

/-- With no command waiting time passes, each sluice takes one message of its upstream queue, and the memory port makes
one transaction of the slices (R228, R287; assumption log entries 3 and 70, DESIGN CHOICE). -/
def idleTick (s : State) : State := s.clockTick.acceptUps.memTick

end Sys2Proof.Machine
end

