-- ==== Sys2Proof/Safety.lean ====
section
/-!
DEFINITION. Safe runs and the terms in which statements speak of them: reset pulses whose effect is undefined, halted
starts, capacities, the frozen state of a fatal block, and register accesses that change nothing else.
-/

namespace Sys2Proof.Safety

open Sys2Proof.Machine

/-- Width in AOCLK cycles of a reset pulse. -/
def pulseWidth : Instr → Option Nat
  | .coldReset w => some w
  | .warmReset w => some w
  | _ => none

/-- A reset pulse of the widths whose effect R9 calls undefined. -/
def undefinedPulse (c : Instr) : Bool := (pulseWidth c).any fun w => 8 ≤ w && w < 32

/-- A run goes on when no step of it stops: `k` steps from `s` all answer a next state. -/
def runsFor : Nat → State → Prop
  | 0, _ => True
  | k + 1, s => ∃ t, step s = .next t ∧ runsFor k t

/-- What a start that halts at step `n` with exit `k` leaves (R63, R64, R72), with the samples of step 1 (R51, R54). -/
def haltedAt (n k : Nat) (e : StartEnv) (t : State) : Prop :=
  t.boot.mode = .halted ∧ t.boot.exit = k ∧ t.boot.step = n ∧ t.boot.crst = true ∧
  t.saf.rails = .error ∧ t.saf.fatalOut = true ∧
  t.boot.log.head?.map (fun x => (x.step, x.outcome)) = some (n, k) ∧
  t.straps.devid = e.devid.toNat ∧ t.straps.hwRole = e.hwRole.toNat ∧ t.straps.dbgSamp = e.dbg

/-- The image set of the fuse pointer that IMG_SEL chooses (R66). -/
def chosenSet (e : StartEnv) : Option ImageSet :=
  if e.imgSel then pointed e.fuses.ptrB e.respB e.fetchB else pointed e.fuses.ptrA e.respA e.fetchA

/-- A cold start whose steps 1 to 5 pass, as it stands before step 6. -/
def beforeFetch (s : State) (e : StartEnv) : State := (((s.step1 e).step2 e.fuses).step3.step4 true).step5 true

/-- A self-test without a finding. -/
def cleanTest (t : SelfTest) : Bool := t.ssaBad.isEmpty && t.plaBad.isEmpty && t.weirA && t.weirB && t.clockOk

/-- The rings and buffers hold no more than the spec gives them: boot log 64 (R72), event trace 4,096 (R435). -/
def ringsOk (s : State) : Bool := decide (s.boot.log.length ≤ 64) && decide (s.trace.length ≤ 4096)

/-- What a FATAL reaction freezes for the dump (R437). -/
def frozen (s t : State) : Prop :=
  t.arr = s.arr ∧ t.weir.queues = s.weir.queues ∧ t.cfl.window = s.cfl.window ∧ t.trace = s.trace ∧
  t.saf.log = s.saf.log ∧ t.saf.head = s.saf.head ∧ ∀ c, (t.ctx c).stack = (s.ctx c).stack

/-- Nothing goes on by itself but time: no message waits at a sluice, no slice has a memory transaction to make. -/
def onlyTime (s : State) : Bool := (s.ports.all fun p => p.2.upq.isEmpty) && s.memSlices.isEmpty

/-- Every domain is ON and no sleep request is under way, so work runs at once (R376, R380). -/
def allOn (s : State) : Bool := s.pwr.dom.isEmpty && s.pwr.phase == 0

/-- The block serves in READY with every domain on. -/
def inService (s : State) : Bool := s.boot.mode == .ready && !s.fatal.inSeq && allOn s

/-- No error stands in the arrays and stores (R163, R176, R179). -/
def unspoiled (s : State) : Bool := s.upsets.isEmpty

/-- The response to a doorbell access is the newest of its port, and the other ports' are as before (R25). -/
def dbAnswered (s t : State) (r : DbReq) (fault : Bool) : Prop :=
  t.cfl.db = SMap.upd [] s.cfl.db r.port.toNat fun l => keepResp 32 l ⟨r.tag, fault, 0⟩

/-- A doorbell access is refused by the rules of R21. -/
def dbForm (r : DbReq) (range : Bool) : Bool :=
  if range then r.size != 3 || r.strb != 0xFF || r.addr.toNat % 8 != 0
  else r.size != 2 || r.strb != 0x0F || r.addr.toNat % 4 != 0

/-- A doorbell write of `k` sources, from source `n` of slice `i` on, passes the checks of R125: the form of R21; a slice
that is ACTIVE; every source in its extent, none in a unit that has lost its owner (R108); on the slice's page a PID of
the slice and its world, on the manager page a requester that R126 lets raise sources of the slice. -/
def mayRing (s : State) (r : DbReq) (range : Bool) (i n k : Nat) : Prop :=
  dbForm r range = false ∧ (s.slc i).state = .active ∧ s.rangeOwned n k = true ∧
  n + k ≤ unitFirst (s.slc i).info.extFirst + 512 * (s.slc i).info.extUnits ∧
  ((dbPage r.addr = i + 1 ∧ pidSlice s.img.active r.pid = some i ∧ r.world = (s.slc i).info.world ∧
      n = unitFirst (s.slc i).info.extFirst + dbFirst r.data ((s.slc i).info.mediated && dbEs1 r.addr)) ∨
    (dbPage r.addr = 0 ∧ s.isManager r.world r.pid = true ∧ s.extentSlice n = some i ∧
      (r.world = true ∨ (s.slc i).info.world = false) ∧ n = fld r.data 0 21))

/-- The class of a source can be read from the express map, or its loss is not FATAL (R133). -/
def mapReads (s : State) (n : Nat) : Prop := n ∈ s.cfl.emapLost → s.reaction 0x0B ≠ 3

/-- Accesses that find every word clean. -/
def cleanAccess : Access := ⟨.clean, .clean, .clean, false⟩

/-- STATE after a firing or level report in resolution: rows Firing, Assert and Deassert of R149. -/
def reportState (k : FKind) (e : Entry) : SState :=
  match k with
  | .fire =>
    match e.state with
    | .idle => if e.en || !e.trig then .pending else .idle
    | .active => if e.trig then .active else .activePending
    | .completing => .completing
    | st => st
  | .assert => if e.state = .idle && e.en then .pending else e.state
  | .deassert => if (e.state = .pending || e.state = .presented) && e.trig then .idle else e.state

/-- An upstream message that its sluice takes at once, nothing waiting before it, and applies (R32, R33, R228, R290). -/
def upApplies (s : State) (u : UpMsg) : Bool :=
  inService s && (s.port u.port.toNat).uReady && !(s.port u.port.toNat).inReset && (s.port u.port.toNat).upq.isEmpty &&
  !u.busy && u.parOk && !u.badOp && !s.frozenCtx (upCtx u)

/-- A detection of a class is counted once between two states (R429). -/
def countsClass (s t : State) (cls : Nat) : Prop :=
  SMap.get 0 t.saf.cls cls = satInc 32 (SMap.get 0 s.saf.cls cls)

/-- What a test access port instruction without its permission does (R411). -/
def deniedTap (s : State) (i : TapInstr) : State :=
  { s with tap := { ctl := s.tap.ctl.walk tapScan, bsr := s.tap.bsr, ir := some i, denied := true, out0 := 0, out1 := 0 } }

/-- The test access port after an instruction that runs: it has been scanned in, and `a`, `b` are shifted out. -/
def tapShown (s : State) (i : TapInstr) (a b : BitVec 64) : Tap :=
  { ctl := s.tap.ctl.walk tapScan, bsr := s.tap.bsr, ir := some i, denied := s.tap.denied, out0 := a, out1 := b }

/-- The debug enables give a world its invasive permission: its enable has been 1 since the sample (R409, R410). -/
def invasiveOk (s : State) (world : Bool) : Bool := bit s.straps.dbgLive (if world then 3 else 1)

/-- The debug enables give a world its non-invasive permission (R409). -/
def nonInvasiveOk (s : State) (world : Bool) : Bool :=
  invasiveOk s world || bit s.straps.dbgNow (if world then 2 else 0)

/-- The key vault takes a message at once: it is formed, awake, and nothing waits or commits (R48, R422). -/
def vaultFree (s : State) : Bool :=
  s.keys.formed && s.keys.waiting.isEmpty && s.keys.offered.isEmpty && s.keys.commit.isNone && s.domSt dSTW == 0 &&
  s.pwr.phase == 0

/-- The copy of slot `n` that a commit writes: the one not in use (R422). -/
def commitCopy (s : State) (n : Nat) : KeyCopy := s.copy (!s.inUseB n) n

/-- GEN of the next commit of slot `n` (R422). -/
def nextGen (s : State) (n : Nat) : Nat := max (s.copy false n).gen (s.copy true n).gen + 1

/-- The register port takes an access at once: CRST_N is high, nothing waits, the block serves in READY with every
domain on (R19, R443). -/
def portFree (s : State) : Bool := s.boot.crst && s.reg.waiting.isEmpty && inService s

/-- A secure-world access outside the slice pages. -/
def secureOp (o : RegOp) : Bool := o.page.isNone && o.world

/-- A slice page accepts an access, or the access uses no page (R275, R449). -/
def pageServes (s : State) (o : RegOp) : Bool :=
  match o.page with
  | none => true
  | some i =>
    (s.slc i.toNat).state != .unassigned && !(s.slc i.toNat).info.mediated &&
      (o.world || (pidSlice s.img.active o.pid == some i.toNat && !(s.slc i.toNat).info.world))

/-- The bank of an access: its page's, or its world's (R446). -/
def bankOf (r : RegPort) (o : RegOp) : Bank :=
  match o.page with
  | some i => SMap.get {} r.pages i.toNat
  | none => if o.world then r.sec else r.nor

/-- The responses of the register port when an access has been answered: it is the newest (R14, R15). -/
def respsAfter (s : State) (tag : BitVec 8) (fault : Bool) (data : BitVec 64) : List Resp :=
  keepResp 16 s.reg.resps ⟨tag, fault, data⟩

/-- A register access has been answered (R14). -/
def answered (s t : State) (o : RegOp) (fault : Bool) (data : BitVec 64) : Prop :=
  t.reg.resps = respsAfter s o.tag fault data

/-- A slice command and its CMD code (R280). -/
def slcCmdOf (o : RegOp) (k : Nat) : Instr :=
  match k with
  | 1 => .activate o | 2 => .quiesce o | 3 => .reset o | 4 => .forceReset o | 5 => .freeze o | 6 => .save o
  | 7 => .restore o | _ => .thaw o

/-- Nothing waits for a domain or a window entry: no register access, doorbell write, key message, link frame or upstream
message, and nothing that a commit has latched. -/
def nothingWaits (s : State) : Bool :=
  s.reg.waiting.isEmpty && s.cfl.dbWait.isEmpty && s.keys.waiting.isEmpty && s.keys.offered.isEmpty &&
  (s.cas.e2e.all fun p => p.2.held.isEmpty) && (s.ports.all fun p => p.2.upq.isEmpty) && s.pwr.latched.isEmpty

/-- The sequencer has no queued level or wake, no reading and no sleep request behind it, and no level to bring back. -/
def seqAlone (s : State) : Bool :=
  s.lev.pend.isNone && s.lev.ageHeld.isNone && s.pwr.phase == 0 && s.pwr.wakeQ == 0 && !s.pwr.restore && nothingWaits s

/-- Margins above both thresholds of R391. -/
def marginsFine (m : Margins) : Bool := !marginsBad m && !marginsLow m

/-- An E2E frame of a device is the next one in order, nothing else held from it, and the block serves (R341). -/
def e2eNext (s : State) (h : RxHdr) : Bool :=
  inService s && !s.upPorts.isEmpty && (s.e2eOf h.org.toNat).held.isEmpty &&
  h.e2e.toNat == (s.e2eOf h.org.toNat).exp

/-- A port that is UP and powered, with room for a frame and none waiting, sends the frame it is given. -/
def canSend (s : State) (p : Nat) : Bool :=
  (s.lport p).state = .up && (s.lport p).replayBuf.length < 512 && (s.lport p).relayq.isEmpty && s.domSt (dLNK p) == 0 &&
  s.pwr.phase == 0

/-- The memory port has begun one transaction: `len` bytes from an address, or as many of them as it moves, with the
data of a write (R13, R26 to R28). -/
def memAsked (s t : State) (write world : Bool) (pid : BitVec 20) (addr : BitVec 48) (len : Nat) (data : List (BitVec 8)) :
    Prop :=
  t.mem.made = s.mem.made + 1 ∧ t.mem.reqs = memKeep s.mem.reqs
    { write := write, world := world, pid := pid, addr := addr &&& 0xFFFFFFFFFFE0,
      size := BitVec.ofNat 3 (txBeats addr (txLen addr len) - 1), tag := Config.memTag s.mem.made,
      rest := len - txLen addr len, beats := memBeats 9 (addr.toNat % 32) (data.take (txLen addr len)) }

/-- The register port has answered an access and nothing else has changed. -/
def onlyAnswered (s t : State) (tag : BitVec 8) (fault : Bool) (data : BitVec 64) : Prop :=
  t = { s with reg := { s.reg with resps := respsAfter s tag fault data } }

end Sys2Proof.Safety
end

