-- ==== Sys2Proof/Certificates/Slice0/Obligations.lean ====
section
/-!
DEFINITION. The statements about the model, one definition each; OBLIGATIONS.json lists them with the rules of spec/
they come from. Every command completes in some statement, with its own effect.
-/

open Sys2Proof Sys2Proof.Machine Sys2Proof.Safety

/-! ### The step, reset and whole-machine rules -/

/-- A step runs the command at the front of the queue with the queue's rest. -/
def Obligations.StepRunsFront : Prop :=
  ∀ (c : Instr) (rest : List Instr) (s : State), s.pending = c :: rest → step s = exec c { s with pending := rest }

/-- With nothing waiting a step lets time pass while the timebase runs (the model's choice, assumption log entry 3):
one AOCLK cycle while the count runs from AOCLK, else one tick, with the phase steps of a slew of at most one tick a
tick (R252, R261); nothing but the timebase, the lanes and the lines of the link ports changes, and those only at the
end of a block period, where no message waits at a sluice and no slice has a memory transaction to make. Where some do,
one transaction is made in a step, and a sluice takes one message (R228, R287; assumption log entry 70). -/
def Obligations.StepIdles : Prop :=
  (∀ s : State, s.pending = [] → s.tb.running = false →
    ((s.ports.all fun p => p.2.upq.isEmpty) = true → ∀ i t, s.memStep = some (i, t) → step s = .next t) ∧
    (s.serving = false → step s = .next s) ∧
    (∀ n e, s.ports = [(n, { s.port n with upq := [e] })] → n < 16 → s.memSlices = [] → s.slog = [] → allOn s = true →
      s.serving = true → s.upTaken e.msg = .frozen → step s = .next ((s.onPort n fun x => { x with upq := [] }).upDiscard
        e.msg e.op .frozen))) ∧
  ∀ s : State, s.pending = [] → onlyTime s = true →
    ∃ t, step s = .next t ∧ t = { s with tb := t.tb, lanes := t.lanes, lports := t.lports } ∧
    (s.tb.running = false → t = s) ∧
    (s.tb.running = true → s.tb.onAoclk = true → t = { s with tb := s.tb.aoCycle } ∧
      (s.tb.aoFrac + s.tb.aoRatio < 1024 * 2 ^ 64 →
        1024 * (t.tb.count - s.tb.count).toNat + t.tb.aoFrac = s.tb.aoFrac + s.tb.aoRatio)) ∧
    (s.tb.running = true → s.tb.onAoclk = false → s.tb.phase < 64 →
      t.tb.phase < 64 ∧ t.tb.running = true ∧
      (s.tb.slew = 0 → t.tb.count = s.tb.count + 1 ∧ t.tb.phase = s.tb.phase) ∧
      (64 ≤ s.tb.slew → t.tb.count = s.tb.count + 2 ∧ t.tb.slew = s.tb.slew - 64) ∧
      (s.tb.slew ≤ -64 → t.tb.count = s.tb.count ∧ t.tb.slew = s.tb.slew + 64) ∧
      (s.tb.blkPhase + 16 < 325 → t = { s with tb := t.tb } ∧ t.tb.blkPhase = s.tb.blkPhase + 16))

/-- The block at always-on power-on (R445): starting, reset low, rails 0, every output domain isolated and unpowered,
VREQ at the PL0 code, every source IDLE and disabled, every link port in electrical idle, the queue empty. -/
def Obligations.ResetState : Prop :=
  State.reset.boot.mode = .starting ∧ State.reset.boot.crst = false ∧ State.reset.saf.rails = .notRunning ∧
  State.reset.saf.fatalOut = false ∧ State.reset.pwr.isoEn = BitVec.allOnes 28 ∧ State.reset.pwr.req = 0 ∧
  State.reset.lev.vreq = 0x14 ∧ State.reset.saf.tmr = 125 ∧ State.reset.tb.count = 0 ∧
  State.reset.pending = [] ∧ (∀ p, (State.reset.lport p).lanes.idleTx = true) ∧
  (∀ n, (State.reset.entry n).state = .idle ∧ (State.reset.entry n).en = false) ∧
  ∀ i, (State.reset.slc i).state = .unassigned

/-- No command stops the block: each answers a next state in every state. -/
def Obligations.NothingStops : Prop :=
  ∀ (c : Instr) (s : State), ∃ t, exec c s = .next t

/-- Every run goes on, whatever commands wait. -/
def Obligations.EveryRunGoesOn : Prop :=
  ∀ (k : Nat) (s : State), runsFor k s

/-- No command touches the queue, and no command but Test-Logic-Reset and the power-on of the always-on domain (which
enters Test-Logic-Reset, the model's reading, log entry 24) clears DENIED (R411). -/
def Obligations.QueueAndDeniedKept : Prop :=
  ∀ (c : Instr) (s t : State), exec c s = .next t →
    t.pending = s.pending ∧
    (c ≠ .testLogicReset → c ≠ .aoPowerOn → c ≠ .alwaysOnReset → s.tap.denied = true → t.tap.denied = true)

/-- The boot log holds at most 64 entries and the event trace at most 4,096 after every step of every state in which
they do, but for a reset pulse whose effect R9 calls undefined (R72, R435). -/
def Obligations.RingsKept : Prop :=
  ∀ s t : State, ringsOk s = true → (s.pending.head?.any undefinedPulse) = false → step s = .next t → ringsOk t = true

/-- Both rings keep their size at reset. -/
def Obligations.RingsAtReset : Prop := ringsOk State.reset = true

/-- A HALTED block out of cold reset stays HALTED under every command but a cold reset, a reset pulse of undefined
effect (R9) and the loss or rise of the always-on supply (R64). -/
def Obligations.HaltedStays : Prop :=
  ∀ (c : Instr) (s t : State), s.boot.mode = .halted → s.boot.crst = true → undefinedPulse c = false →
    (∀ w, c ≠ .coldReset w) → c ≠ .aoPowerOn → c ≠ .alwaysOnReset → exec c s = .next t →
    t.boot.mode = .halted ∧ t.boot.crst = true

/-- After the tick of a FATAL reaction (what comes in the same one may still be recorded, R403, assumption log entry 104)
nothing changes the arrays, the queue heads, the stacks, the window, the error log or the trace, until a cold reset, a reset pulse of undefined effect (R9) or the always-on supply ends the fatal sequence
(R437). -/
def Obligations.FatalFreezes : Prop :=
  ∀ (c : Instr) (s t : State), s.fatal.inSeq = true → s.boot.crst = true → undefinedPulse c = false →
    (∀ w, c ≠ .coldReset w) → c ≠ .aoPowerOn → c ≠ .alwaysOnReset → exec c s = .next t →
    t.fatal.inSeq = true ∧ t.boot.crst = true ∧ (s.fatal.tick ≠ s.now → s.fatal.tick ≠ t.now → frozen s t)

/-! ### Start-up and resets -/

/-- A reset pulse below 8 AOCLK cycles has no effect (R9), nor has any while CRST_N is low (R8); a cold reset keeps the
boot log, BOOTCNT (incremented), the ageing record, the key store and the test access port, and clears the rest (R73).
What a pulse of 8 to 31 cycles does is undefined and ends at the next valid cold reset: that leaves, but for the count
of free values, what it would have left without the pulse (R9). The always-on domain's power: power-on clears the boot
log, BOOTCNT and the ageing record, whose codes restart at nominal, and keeps the key store; its loss leaves the domain
down (R10, R59, R73). -/
def Obligations.ResetPulsesAndPower : Prop :=
  (∀ (w : Nat) (s : State),
     (w < 8 → exec (.coldReset w) s = .next s ∧ exec (.warmReset w) s = .next s) ∧
     (s.boot.crst = false → exec (.coldReset w) s = .next s ∧ exec (.warmReset w) s = .next s) ∧
     (∀ (v : Nat) (c : Instr) (t : State), 32 ≤ v → c = .coldReset w ∨ c = .warmReset w → undefinedPulse c = true →
       s.boot.crst = true → exec c s = .next t →
       ∃ u x, exec (.coldReset v) s = .next u ∧ exec (.coldReset v) t = .next { u with free := x }) ∧
     (32 ≤ w → s.boot.crst = true → ∃ t, exec (.coldReset w) s = .next t ∧ t.tap = s.tap ∧
       t.boot.crst = false ∧ t.boot.mode = .starting ∧ t.boot.log = s.boot.log ∧
       t.boot.bootcnt = (s.boot.bootcnt + 1) % 65536 ∧ t.lev.lvls = s.lev.lvls ∧ t.straps.lcs = 0 ∧
       (s.keys.commit = none → t.keys = { copyA := s.keys.copyA, copyB := s.keys.copyB }) ∧
       t.saf = {} ∧ t.img = {} ∧ t.arr = {} ∧ t.weir = {} ∧ t.ctxs = [] ∧ t.grps = [] ∧ t.slcs = [] ∧ t.lanes = [] ∧
       t.lports = [] ∧ t.lauth = [] ∧ t.tb.count = 0 ∧ t.pwr = {} ∧ t.trace = [] ∧ t.fatal = {})) ∧
  ∀ s : State, s.keys.commit = none →
    (∃ t, exec .alwaysOnReset s = .next t ∧ t.boot = {} ∧ t.lev = Lev.reset ∧ t.saf = {} ∧ t.arr = {} ∧
      t.keys = { copyA := s.keys.copyA, copyB := s.keys.copyB } ∧ t.pwr = {} ∧ t.tb = {}) ∧
    (s.boot.aoUp = false → s.boot.held = none → ∃ t, exec .aoPowerOn s = .next t ∧ t.boot = { aoUp := true } ∧
      t.lev = Lev.reset ∧ t.saf = {} ∧ t.arr = {} ∧
      t.keys = { copyA := s.keys.copyA, copyB := s.keys.copyB } ∧ t.pwr = {} ∧ t.tb = {})

/-- A cold start halts at steps 2 to 6 with the exits of R63, samples logged and rails at error; before the always-on
domain is ready it is held (R59). A cold start of a device without a cascade role, whose images verify and whose
self-test finds nothing, reaches READY or, after exit 0x8 or 0x9, SAFE_MINIMAL (R61, R63, R65). -/
def Obligations.ColdStarts : Prop :=
  (∀ (e : StartEnv) (s : State), s.boot.crst = false →
     (s.boot.aoUp = false →
       exec (.coldStart e) s = .next
         { s with straps := { s.straps with dbgNow := e.dbg }, boot := { s.boot with crst := true, held := some e } }) ∧
     (s.boot.aoUp = true → s.fatal.inSeq = false → ∃ t, exec (.coldStart e) s = .next t ∧
       (e.fuses.crcOk = false → haltedAt 2 1 e t) ∧
       (e.fuses.crcOk = true → 3 < e.fuses.lcs.toNat → haltedAt 2 2 e t) ∧
       (e.fuses.crcOk = true → e.fuses.lcs = 3 → bit e.dbg 3 = false → bit e.dbg 1 = false → haltedAt 3 3 e t) ∧
       (e.fuses.crcOk = true → e.fuses.lcs.toNat < 3 → e.pllOk = false → haltedAt 4 4 e t) ∧
       (e.fuses.crcOk = true → e.fuses.lcs.toNat < 3 → e.pllOk = true → e.romOk = false → haltedAt 5 5 e t) ∧
       (e.fuses.crcOk = true → e.fuses.lcs.toNat < 3 → e.pllOk = true → e.romOk = true →
         e.fuses.ptrA = 0 → e.fuses.ptrB = 0 → haltedAt 6 6 e t))) ∧
  ∀ (e : StartEnv) (s : State) (x : ImageSet), s.boot.crst = false → s.boot.aoUp = true →
    s.fatal.inSeq = false → s.saf.react = [] → s.cas.role = 0 →
    e.fuses.crcOk = true → e.fuses.lcs.toNat < 3 → e.pllOk = true → e.romOk = true →
    chosenSet e = some x → ((beforeFetch s e).setCode (some x)).1 = 0 →
    casRole (normBody x.structureImg) = 0 → cleanTest e.test = true →
    ∃ t, exec (.coldStart e) s = .next t ∧ t.boot.step = 14 ∧
      t.boot.mode = (if t.boot.exit = 8 ∨ t.boot.exit = 9 then .safeMinimal else .ready) ∧
      (t.boot.mode = .ready → (t.slc 0).state = .active)

/-- A warm reset outside start-up, HALTED and the fatal sequence: MODE reads STARTING, every SSA entry is IDLE, the
PLA, the queues and the stacks are empty, moving slices are QUIESCED, the mailbox is free (R73, R74); an ignored edge
only writes its boot log entry (R72, R75). Register accesses that wait go on after either. The end of a warm reset of a
device without a cascade role whose self-test finds nothing: READY, or SAFE_MINIMAL where the reset began in it, once
every domain is on (R74, R75, R386); a release without a reset changes nothing. -/
def Obligations.WarmResets : Prop :=
  (∀ (w : Nat) (s : State), 32 ≤ w → s.boot.crst = true → s.boot.aoUp = true →
     (s.fatal.inSeq = false → s.boot.mode = .ready ∨ s.boot.mode = .safeMinimal →
       ∃ t : State, exec (.warmReset w) s = .next t.drainAll ∧
         (s.reg.waiting = [] → t.drainAll = t) ∧ t.boot.mode = .starting ∧ t.boot.cause = 3 ∧ t.boot.warm = true ∧
         t.boot.wrstLow = true ∧ t.boot.warmSafe = (s.boot.mode == .safeMinimal) ∧
         (∀ n, (t.entry n).state = .idle) ∧ t.arr.pla = [] ∧ t.weir.queues = [] ∧ t.weir.wheel = [] ∧
         t.cfl.window = [] ∧ t.cfl.dbWait = [] ∧ (∀ c, (t.ctx c).stack = [] ∧ (t.ctx c).pres = none) ∧
         (∀ i, (t.slc i).state ≠ .quiescing ∧ (t.slc i).state ≠ .frozen ∧ (t.slc i).state ≠ .restoring) ∧
         t.mbx.owned = false ∧ t.mbx.busy = false ∧ t.keys = s.keys ∧ t.tb.count = s.tb.count) ∧
     (s.fatal.inSeq = true ∨ s.boot.mode = .starting ∨ s.boot.mode = .halted →
       ∃ (t : State) (x : Nat), exec (.warmReset w) s = .next t.drainAll ∧
         t.boot.log = (⟨0x1B, x, Config.bootTime s.free % 2 ^ 23⟩ :: s.boot.log).take 64 ∧
         t = { s with boot := { s.boot with log := t.boot.log }, free := s.free + 1 } ∧
         x = (if s.boot.mode = .halted then 3 else if s.fatal.inSeq then 4 else 0))) ∧
  ∀ (e : SelfTest) (s : State),
    (s.boot.wrstLow = false → exec (.warmResetRelease e) s = .next s) ∧
    (s.boot.wrstLow = true → s.fatal.inSeq = true →
      exec (.warmResetRelease e) s = .next { s with boot := { s.boot with wrstLow := false } }) ∧
    (∀ d, d < 28 → 2 ≤ s.domSt d → s.boot.wrstLow = true → s.fatal.inSeq = false → ∃ t,
      exec (.warmResetRelease e) s = .next t ∧ t.boot.wrstLow = false ∧ t.boot.warmTest = some e ∧
      t.boot.mode = s.boot.mode ∧ t.wakes d = true) ∧
    (s.boot.wrstLow = true → s.fatal.inSeq = false → s.boot.mode = .starting → s.cas.role = 0 → cleanTest e = true →
      allOn s = true → ∃ t, exec (.warmResetRelease e) s = .next t ∧ t.boot.wrstLow = false ∧ t.boot.step = 14 ∧
        t.boot.mode = (if s.boot.warmSafe then .safeMinimal else .ready))

/-- 20 ms without a path to a headwater: READY alone with TIME_UNALIGNED set (R70). The cascade-ready notice of another
device, on a port that is UP, goes on over every other port that can send, and a device in step 13 of its start enters
READY, one before step 13 notes it (R69). A debug enable that changes while
CRST_N is low is only sampled; the samples that grant invasive instructions never rise (R410). -/
def Obligations.JoinTimeoutAndDebug : Prop :=
  (∀ s : State, s.boot.mode = .starting → s.boot.warm = false → s.hasPath = false → s.boot.wrstLow = false →
    11 ≤ s.boot.step → s.fatal.inSeq = false →
    ∃ t, exec .cascadeJoinTimeout s = .next t ∧ t.boot.step = 14 ∧ t.boot.timeUnaligned = true ∧
      t.boot.mode = (if s.boot.warmSafe then .safeMinimal else .ready)) ∧
  (∀ (p : BitVec 2) (m : TopoMsg) (s : State), s.fatal.inSeq = false → (s.lport p.toNat).state = .up →
    s.boot.mode = .starting → s.boot.warm = false →
    (s.boot.step = 13 → ∃ t, exec (.topoReady p m) s = .next t ∧ t.boot.step = 14 ∧ t.boot.noticed = false ∧
      t.boot.mode = (if s.boot.warmSafe then .safeMinimal else .ready) ∧ t.arr = s.arr ∧
      (s.boot.warmSafe = false → (t.slc 0).state = .active)) ∧
    (s.boot.step ≠ 13 → ∃ t, exec (.topoReady p m) s = .next t ∧
      t = { s with boot := { s.boot with noticed := true }, lports := t.lports, lauth := t.lauth, pwr := t.pwr } ∧
      (m.hw.toNat ≠ s.dev → ∀ q, q < 4 → q ≠ p.toNat → canSend s q = true →
        (t.lport q).seq = (s.lport q).seq + 1))) ∧
  ∀ (en : BitVec 4) (s : State), ∃ t, exec (.debugEnableChange en) s = .next t ∧ t.straps.dbgNow = en ∧
    t.straps.dbgLive = s.straps.dbgLive &&& en ∧ t.straps.dbgSamp = s.straps.dbgSamp ∧
    (s.boot.crst = false → t = { s with straps := t.straps }) ∧
    (s.boot.crst = true → (en &&& ~~~ s.straps.dbgNow) &&& 10 ≠ 0 →
      SMap.get 0 t.saf.cls 0x15 = satInc 32 (SMap.get 0 s.saf.cls 0x15)) ∧
    (s.boot.crst = true → bit t.straps.dbgLive 3 = false → t.saf.stwStop = false)

/-! ### The test access port -/

/-- Without its permission a TAP instruction shifts out zeros, changes nothing and sets DENIED (R409, R411);
Test-Logic-Reset takes the controller there from every state (R52; IEEE 1149.1, assumption log entry 90) and clears
DENIED, and no other command does but the two that reset the always-on domain (R411). -/
def Obligations.TapDenials : Prop :=
  ∀ (s : State) (pla : Bool) (n : BitVec 21) (v : BitVec 64) (i : BitVec 12) (c : CntSel),
    (invasiveOk s true = false →
      exec .stwHalt s = .next (deniedTap s .stwHalt) ∧ exec .stwStep s = .next (deniedTap s .stwStep)) ∧
    (invasiveOk s (s.entry n.toNat).world = false →
      exec (.aryRd pla n) s = .next (deniedTap s .aryRd) ∧ exec (.aryWr pla n v) s = .next (deniedTap s .aryWr)) ∧
    (nonInvasiveOk s true = false → nonInvasiveOk s false = false →
      exec (.traceRd i) s = .next (deniedTap s .traceRd)) ∧
    (nonInvasiveOk s (s.cntWorld c) = false → exec (.cntRd c) s = .next (deniedTap s .cntRd)) ∧
    exec .testLogicReset s = .next { s with tap := { s.tap with ctl := .testLogicReset, ir := none, denied := false } } ∧
    (s.tap.denied = true → ∀ d t, d ≠ .testLogicReset → d ≠ .aoPowerOn → d ≠ .alwaysOnReset → exec d s = .next t →
      t.tap.denied = true)

/-- With its permission each TAP instruction does what R409 says: the steward halts or steps, an entry of the arrays is
read or written (not after a FATAL reaction, R437; a read that finds the reserved STATE repairs it, R145), the trace is
read oldest first with entries of a world without enable as zero (R435), a counter is read without being cleared. DENIED
stays as it is; an array access wakes its quadrant (R377), and an array that is on stays as it is but for what is
written. -/
def Obligations.TapInstructions : Prop :=
  ∀ (s : State) (n : BitVec 21) (v : BitVec 64),
    (invasiveOk s true = true →
      exec .stwHalt s = .next { s with tap := tapShown s .stwHalt s.tap.out0 s.tap.out1,
                                       saf := { s.saf with stwStop := true } } ∧
      exec .stwStep s = .next { s with tap := tapShown s .stwStep s.tap.out0 s.tap.out1,
                                       saf := { s.saf with steps := s.saf.steps + b2n s.saf.stwStop } }) ∧
    (invasiveOk s (s.entry n.toNat).world = true →
      (∀ pla : Bool,
        ((s.entry n.toNat).state ≠ .reserved ∧ unspoiled s = true ∨ s.fatal.inSeq = true → ∃ t,
          exec (.aryRd pla n) s = .next t ∧ t = { s with tap := t.tap, pwr := t.pwr } ∧
          t.tap = tapShown s .aryRd (if pla then (s.plaOf n.toNat).toWord else (s.entry n.toNat).toWord) 0 ∧
          (allOn s = true → t.pwr = s.pwr) ∧
          (2 ≤ s.domSt (dARR n.toNat) → s.pwr.phase = 0 → t.wakes (dARR n.toNat) = true)) ∧
        ((s.entry n.toNat).state = .reserved → unspoiled s = true → s.fatal.inSeq = false → ∃ t,
          exec (.aryRd pla n) s = .next t ∧ (t.entry n.toNat).state = .idle ∧ (t.plaOf n.toNat).linked = false ∧
          countsClass s t 0x09 ∧ ∀ m, m ≠ n.toNat → t.entry m = s.entry m)) ∧
      (∀ pla : Bool, ∃ t, exec (.aryWr pla n v) s = .next t ∧ (allOn s = true → t.pwr = s.pwr) ∧
        t.tap = tapShown s .aryWr s.tap.out0 s.tap.out1 ∧
        (s.fatal.inSeq = true → t = { s with tap := t.tap, pwr := t.pwr }) ∧
        (s.fatal.inSeq = false →
          t = { s with tap := t.tap, pwr := t.pwr, arr := t.arr, cfl := t.cfl, upsets := t.upsets } ∧
          (∀ u ∈ t.upsets, u ∈ s.upsets ∧ ∀ w, u ≠ .word pla n w) ∧
          t.cfl.window = s.cfl.window ∧ t.cfl.latches = s.cfl.latches ∧ t.arr.aryWr = s.arr.aryWr + 1 ∧
          (pla = false → t.entry n.toNat = Entry.ofWord v ∧ (∀ m, m ≠ n.toNat → t.entry m = s.entry m) ∧
            t.arr.pla = s.arr.pla) ∧
          (pla = true → t.plaOf n.toNat = Pla.ofWord v ∧ (∀ m, m ≠ n.toNat → t.plaOf m = s.plaOf m) ∧
            t.arr.cells = s.arr.cells)))) ∧
    (∀ i : BitVec 12, nonInvasiveOk s true = true ∨ nonInvasiveOk s false = true →
      ∃ a b, exec (.traceRd i) s = .next { s with tap := tapShown s .traceRd a b } ∧
        (∀ x, s.trace[i.toNat]? = some x → (a, b) = if nonInvasiveOk s (bit x.2 58) then x else (0, 0)) ∧
        (s.trace[i.toNat]? = none → a = 0 ∧ b = 0)) ∧
    (∀ c : CntSel, nonInvasiveOk s (s.cntWorld c) = true →
      ∃ a, exec (.cntRd c) s = .next { s with tap := tapShown s .cntRd a 0 } ∧
        (∀ k, c = .source k → a = n64 (s.line k.toNat).merged) ∧
        (∀ k, c = .slice k .completions → a = (s.slc k.toNat).cnt.cpl) ∧
        (∀ g, c = .group g → a = (s.grp g.toNat).st))

/-! ### Keys -/

/-- A LOAD that a free vault takes: one that keeps R417 begins a commit of the unwrapped key into the copy not in use
with the next GEN, no live slot changing before it ends; one that breaks R49 or R417, or whose unwrap fails, is
answered FAULT and changes no slot and no copy; a reserved KEY_OP is answered FAULT, one that names an INVALIDATE is
that INVALIDATE (R48). An INVALIDATE that a free vault takes: of a slot, the slot is invalidated live and its tombstone
is committed (R418); of the root, the selected root is invalidated and the root record is committed (R419), the others
keep their slots. An INVALIDATE of another length is answered FAULT (R49). The end of a commit makes the copy valid,
the live slot follow and the answer DONE (R422). Before the vault is formed no message is taken (R48). -/
def Obligations.KeyPort : Prop :=
  (∀ (slot : BitVec 4) (h : BitVec 64) (body beats : List (BitVec 64)) (op : BitVec 3) (s : State),
     (s.keys.formed = false → exec (.load ⟨op, slot⟩ beats) s = .next s) ∧
     exec (.load ⟨2, slot⟩ beats) s = exec (.invalidateSlot slot beats.length) s ∧
     exec (.load ⟨3, slot⟩ beats) s = exec (.invalidateRoot beats.length) s ∧
     (vaultFree s = true →
       (op = 0 ∨ 4 ≤ op.toNat ∨ op = 1 ∧ 16 < beats.length →
         exec (.load ⟨op, slot⟩ beats) s = .next { s with keys := { s.keys with resps := [false] } }) ∧
       (body.length ≤ 15 →
         slot.toNat < 6 ∨ loadHeaderOk slot.toNat h = false ∨ body.length ≠ fld h 12 4 + 1 ∨
           s.parentOk (fld h 7 5) = false →
         ∃ t, exec (.load ⟨1, slot⟩ (h :: body)) s = .next t ∧ t.keys = { s.keys with resps := [false] }) ∧
       (6 ≤ slot.toNat → loadHeaderOk slot.toNat h = true → body.length = fld h 12 4 + 1 →
         s.parentOk (fld h 7 5) = true → (commitCopy s slot.toNat).commits < 100000 →
         ∃ t, exec (.load ⟨1, slot⟩ (h :: body)) s = .next t ∧ t.keys.slots = s.keys.slots ∧
           t.keys.copyA = s.keys.copyA ∧ t.keys.copyB = s.keys.copyB ∧
           match Config.kwUnwrap (Config.kekOf (s.parentKey (fld h 7 5)).1 (s.parentKey (fld h 7 5)).2 slot.toNat h)
             body with
           | none => t.keys.commit = none ∧ t.keys.resps = [false]
           | some key => t.keys.resps = s.keys.resps ∧ ∃ c, t.keys.commit = some c ∧ c.slot = slot.toNat ∧
               c.toB = (!s.inUseB slot.toNat) ∧ c.copy.key = key ∧ c.copy.gen = nextGen s slot.toNat ∧
               c.copy.commits = (commitCopy s slot.toNat).commits + 1 ∧ c.live.map (·.key) = some key))) ∧
  ∀ (slot : BitVec 4) (beats : Nat) (s : State),
    (vaultFree s = true →
      (beats ≠ 1 →
        exec (.invalidateSlot slot beats) s = .next { s with keys := { s.keys with resps := [false] } } ∧
        exec (.invalidateRoot beats) s = .next { s with keys := { s.keys with resps := [false] } }) ∧
      ((commitCopy s slot.toNat).commits < 100000 → ∃ t c, exec (.invalidateSlot slot 1) s = .next t ∧
        t.slot slot.toNat = { s.slot slot.toNat with invalidated := true } ∧
        (∀ m, m ≠ slot.toNat → t.slot m = s.slot m) ∧ t.usable slot.toNat = false ∧
        t.keys.commit = some c ∧ c.slot = slot.toNat ∧ c.copy.tombstone = true ∧
        c.copy.gen = nextGen s slot.toNat ∧ t.keys.resps = s.keys.resps) ∧
      ((commitCopy s 16).commits < 100000 → ∃ t c, exec (.invalidateRoot 1) s = .next t ∧
        t.keys.rootInv = s.keys.rootInv ||| BitVec.ofNat 4 (2 ^ s.keys.root) ∧ t.keys.slots = s.keys.slots ∧
        t.keys.commit = some c ∧ c.slot = 16 ∧ c.copy.header = t.keys.rootInv.setWidth 64 ∧
        c.copy.gen = nextGen s 16 ∧ t.keys.resps = s.keys.resps)) ∧
    (s.keys.formed = false → exec (.invalidateSlot slot beats) s = .next s ∧ exec (.invalidateRoot beats) s = .next s) ∧
    (s.keys.commit = none → exec .keyStoreCommitEnd s = .next s) ∧
    (∀ c, s.keys.commit = some c → s.keys.waiting = [] → s.keys.offered = [] → ∃ t, exec .keyStoreCommitEnd s = .next t ∧
      t.keys.commit = none ∧ t.keys.resps = [true] ∧ t.copy c.toB c.slot = c.copy ∧
      (∀ b n, (b, n) ≠ (c.toB, c.slot) → t.copy b n = s.copy b n) ∧
      (∀ x, c.live = some x → t.slot c.slot = x) ∧ (∀ n, n ≠ c.slot → t.slot n = s.slot n))

/-! ### The steward and integrity -/

/-- The end of the running mailbox command: BUSY clears, STATUS is that of R453, a status other than DONE and a released
mailbox leave RLEN 0; VERSIONS answers 28 bytes (R452, R453). Nothing else changes. -/
def Obligations.MailboxCommandEnds : Prop :=
  ∀ (e : MailEnv) (s : State),
    (s.mbx.busy = false → exec (.mailboxCommandEnd e) s = .next s) ∧
    (s.mbx.busy = true → s.saf.stwStop = false → s.boot.mode = .ready ∨ s.boot.mode = .safeMinimal →
      ∃ t, exec (.mailboxCommandEnd e) s = .next t ∧ t = { s with mbx := t.mbx } ∧ t.mbx.busy = false ∧
        t.mbx.owned = s.mbx.owned ∧ t.mbx.owner = s.mbx.owner ∧ t.mbx.cmd = s.mbx.cmd ∧
        (s.saf.stwHalted = true → t.mbx.status = 5) ∧
        (s.saf.stwHalted = false → s.mbx.cmd = 0 ∨ 4 < s.mbx.cmd → t.mbx.status = 1) ∧
        (s.saf.stwHalted = false → s.mbx.cmd = 2 → s.boot.mode = .safeMinimal → t.mbx.status = 2) ∧
        (s.saf.stwHalted = false → s.mbx.cmd = 2 → s.boot.mode = .ready →
          t.mbx.status = if s.mbx.unusable || !s.usable 0 then 3 else 0) ∧
        (s.saf.stwHalted = false → s.mbx.cmd = 1 ∨ s.mbx.cmd = 3 → t.mbx.status = 0) ∧
        (s.saf.stwHalted = false → s.mbx.cmd = 4 → t.mbx.status =
          if s.boot.mode = .ready ∧ s.mbx.owner = true ∧ s.straps.lcs = 0 then 0 else 2) ∧
        (t.mbx.status ≠ 0 ∨ s.mbx.owned = false → t.mbx.rlen = 0 ∧ (t.mbx.status ≠ 0 → t.mbx.data = s.mbx.data)) ∧
        (s.saf.stwHalted = false → s.mbx.cmd = 1 → s.mbx.owned = true → t.mbx.rlen = 28))

/-- Scrub and rebuild: a scrub step of a clean row goes to the next one, the last row of a pass counts the pass and
begins the failure counts again; a parity mismatch among clean words is counted in PMISS and as class 0x08 (R169); a
row that has lost two words is class 0x07 (R164). A rebuild step writes one row of the spare, with the last one the
array is SPARED (R166). The scrub stands while it cannot run. The Weir's copies: the end of a self-test goes on with
the copies that pass, fencing one (class 0x01) or failing both (class 0x02) (R199); while one is fenced a decision the
shadow checker does not agree with counts (class 0x03, R200, R201); a derived link store serves again (R179). Visits that
were put off are made with the next slot or pass (the model's choice, assumption log entry 103). An error that stands in
an array word is found by an access to its source, by a read of the test port too: an uncorrectable word is counted, as
class 0x04, and given back by its row, a row that has lost more is class 0x07; the entry stays (R163, R164). Errors come
with a pass (the model's choice, assumption log entry 102). -/
def Obligations.ScrubRebuildAndCopies : Prop :=
  (∀ (a b : RowRead) (pla : Bool) (s : State),
     (s.scrubs = false → exec (.scrubStep a b) s = .next s) ∧
     (s.scrubs = true → unspoiled s = true → a.words = [] → b.words = [] → ∃ t, exec (.scrubStep a b) s = .next t ∧
       t.stripes.row = (if s.stripes.row + 1 < 65536 then s.stripes.row + 1 else 0) ∧
       (65536 ≤ s.stripes.row + 1 → t.stripes.passes = (s.stripes.passes + 1) % 2 ^ 32 ∧ t.stripes.ssa.ueRows = [] ∧
         t.stripes.pla.ueRows = []) ∧
       (a.parityOk = true → b.parityOk = true → t = { s with stripes := t.stripes } ∧
         t.stripes.pmiss = s.stripes.pmiss) ∧
       (a.parityOk = false → b.parityOk = true →
         t.stripes.pmiss = satInc 16 s.stripes.pmiss ∧ countsClass s t 0x08)) ∧
     (s.scrubs = true → unspoiled s = true → b.words = [] → b.parityOk = true →
       2 ≤ (a.words.filter fun w => w.2 == .uncorrectable && !s.stripes.ssa.gone w.1.toNat).length →
       ∃ t, exec (.scrubStep a b) s = .next t ∧ countsClass s t 0x07 ∧ t.stripes.ssa.ue = s.stripes.ssa.ue ∧
       t.arr = s.arr) ∧
     ((s.stripe pla).rebuildRuns = false → exec (.rebuildStep pla) s = .next s) ∧
     ((s.stripe pla).mode = .rebuilding → (s.stripe pla).rebuildRow < 65536 → ∃ t,
       exec (.rebuildStep pla) s = .next t ∧ (t.stripe pla).rebuildRow = (s.stripe pla).rebuildRow + 1 ∧
       (t.stripe pla).mode = (if (s.stripe pla).rebuildRow = 65535 then .spared else .rebuilding) ∧
       t.stripe (!pla) = s.stripe (!pla) ∧ t = { s with stripes := t.stripes, boot := t.boot } ∧
       t.boot.mode = s.boot.mode)) ∧
  (∀ (pla : Bool) (n : BitVec 21) (k : BitVec 6) (c : Compare) (o : BitVec 11) (h : HeadWord) (l : List Upset) (s : State),
     (s.serving = false → (∀ u ∈ l, ∀ x, u ≠ .map x) →
       exec (.weirPass ⟨c, o, h, l⟩) s = .next { s with upsets := s.upsets ++ l }) ∧
     (invasiveOk s (s.entry n.toNat).world = true → s.fatal.inSeq = false → (s.entry n.toNat).state ≠ .reserved →
       (s.stripe pla).gone ((s.stripe pla).bankOf (rowOf n.toNat) (bankPos n.toNat)) = false →
       (s.upsets = [.word pla n .uncorrectable] → (s.stripe pla).mode = .normal → (s.stripe pla).ueRows = [] → ∃ t,
         exec (.aryRd pla n) s = .next t ∧ t.upsets = [] ∧ countsClass s t 0x04 ∧
         (t.stripe pla).ue = satInc 16 (s.stripe pla).ue ∧ (t.stripe pla).mode = .normal ∧ t.arr = s.arr) ∧
       (s.upsets = [.word pla n (.rowLost k)] → ∃ t, exec (.aryRd pla n) s = .next t ∧ t.upsets = [] ∧
         countsClass s t 0x07 ∧ t.arr = s.arr ∧ t.stripes = s.stripes))) ∧
  ∀ (a b agree : Bool) (c : BitVec 10) (s : State),
    (s.weir.mode ≠ .selftest → exec (.weirSelftestEnd a b) s = .next s) ∧
    (s.weir.mode = .selftest → ∃ t, exec (.weirSelftestEnd a b) s = .next t ∧
      t.weir.mode = (if a && b then .lockstep else if a then .fencedB else if b then .fencedA else .failed) ∧
      t.weir = { s.weir with mode := t.weir.mode } ∧ (a = true → b = true → t = { s with weir := t.weir }) ∧
      (a ≠ b → t.boot.weirFenced = true ∧ countsClass s t 0x01) ∧
      (a = false → b = false → countsClass s t 0x02)) ∧
    (s.weir.mode = .fencedA ∨ s.weir.mode = .fencedB → ∃ t, exec (.shadowCheck c agree) s = .next t ∧
      (agree = true → t = s) ∧
      (agree = false → t.weir = { s.weir with shadowErr := satInc 16 s.weir.shadowErr } ∧ countsClass s t 0x03)) ∧
    (s.weir.mode ≠ .fencedA → s.weir.mode ≠ .fencedB → exec (.shadowCheck c agree) s = .next s) ∧
    exec .linkStoreRebuildEnd s = .next { s with weir := { s.weir with linkRebuild := false } }

/-- The boot log entry of a dump's end and HALTED after it (R402, R438). A dump that is written ends with its MAGIC, one
that a FAULT ends has begun with zeros in its place, as secure-world writes (R28, R437). -/
def Obligations.DumpEnds : Prop :=
  ∀ (m : MemEnd) (cycles : BitVec 23) (s : State),
    (s.fatal.inSeq = false ∨ s.boot.mode = .halted → exec (.fatalDumpEnd m cycles) s = .next s) ∧
    (s.fatal.inSeq = true → s.boot.mode ≠ .halted → ∃ t o, exec (.fatalDumpEnd m cycles) s = .next t ∧
      t.boot.mode = .halted ∧ t.boot.log = (⟨0x1D, o, cycles.toNat⟩ :: s.boot.log).take 64 ∧
      t = { s with boot := t.boot, free := t.free, mem := t.mem } ∧ o ≤ 5 ∧
      (o = 0 ∨ o = 1 ∨ o = 4 → s.mem.made < t.mem.made ∧ t.mem.logs = s.mem.logs ∧ ∃ q,
        t.mem.reqs.getLast? = some q ∧ q.write = true ∧ q.world = true ∧ q.pid = bootStwPid s.img.active ∧
        q.addr = s.fatal.dumpAddr &&& 0xFFFFFFFFFFE0 ∧
        (s.fatal.dumpAddr.toNat % 32 = 0 → q.beats = memBeats 9 0 (if o = 4 then natLE 32 0 else natLE 4 0x504D5544))) ∧
      (o = 2 ∨ o = 3 ∨ o = 5 → t.mem = s.mem) ∧
      (s.fatal.cls = 0x13 ∨ s.saf.stwHalted = true ∨ s.saf.stwStop = true → o = 5) ∧
      (s.fatal.cls ≠ 0x13 → s.saf.stwHalted = false → s.saf.stwStop = false →
        (s.fatal.dumpLen = 0 → o = 2) ∧
        (s.fatal.dumpLen ≠ 0 → s.fatal.dumpLen < s.dumpShort → o = 3) ∧
        (s.fatal.dumpLen ≠ 0 → s.dumpShort ≤ s.fatal.dumpLen → m ≠ .done → o = 4) ∧
        (s.fatal.dumpLen ≠ 0 → s.dumpShort ≤ s.fatal.dumpLen → m = .done →
          o = if s.fatal.arrays = true ∧ s.dumpFull ≤ s.fatal.dumpLen ∧ 1 ≤ s.lev.cur then 0 else 1)))

/-- A clock fault that a monitor finds, with CRST_N high, is class 0x12: counted, and before a FATAL reaction recorded with
the clock in DETAIL. A FATAL reaction to it starts the fatal sequence: SAF_FATAL, the rails, its bit of SAF_SIG, and no
waiting doorbell; after the cycle of an earlier one it is only counted (R402, R403, R428, R437). The core clock's monitor
rests in DORMANT. The watchdog of a steward that runs expires: class 0x13 counted, the mailbox free, its running command
ABORTED, and a second expiry within a second halts the steward (R400, R452). -/
def Obligations.ClockFaultAndWatchdog : Prop :=
  ∀ (k : ClockId) (stopped : Bool) (s : State),
    (s.boot.crst = false → exec (.clockFault k stopped) s = .next s ∧ exec .stewardWatchdogExpiry s = .next s) ∧
    (k = .hclk → s.blockState = 3 → exec (.clockFault k stopped) s = .next s) ∧
    (s.boot.crst = true → k ≠ .hclk ∨ s.blockState ≠ 3 → ∃ t, exec (.clockFault k stopped) s = .next t ∧
      countsClass s t 0x12 ∧ t.arr = s.arr ∧ t.ctxs = s.ctxs ∧ t.weir = s.weir ∧
      (s.fatal.inSeq = false → s.reaction 0x12 = 3 → t.fatal = { s.fatal with inSeq := true, tick := s.now, cls := 0x12 } ∧
        t.saf.fatalOut = true ∧ t.saf.rails = .error ∧ bit t.saf.sig 0x12 = true ∧ t.cfl.dbWait = [] ∧
        (s.saf.unread < 255 → t.saf.head = (s.saf.head + 1) % 256 ∧ SMap.get (0, 0) t.saf.log s.saf.head =
          (s.stampSclk, errWord 0x12 3 none 0 0 (clockCode k + 256 * b2n stopped)))) ∧
      (s.fatal.inSeq = true → s.fatal.tick ≠ s.now →
        t = { s with saf := { s.saf with cls := t.saf.cls }, free := s.free + 1 })) ∧
    (s.boot.crst = true → s.saf.stwHalted = true ∨ s.saf.stwStop = true →
      exec .stewardWatchdogExpiry s = .next s) ∧
    (s.boot.crst = true → s.saf.stwHalted = false → s.saf.stwStop = false → s.mailServed = true → ∃ t,
      exec .stewardWatchdogExpiry s = .next t ∧ countsClass s t 0x13 ∧ t.mbx.owned = false ∧ t.mbx.busy = false ∧
      t.mbx.status = (if s.mbx.busy then 4 else s.mbx.status) ∧ t.saf.lastWdt = some s.now ∧ t.arr = s.arr ∧
      t.ctxs = s.ctxs ∧ t.weir = s.weir ∧ (s.saf.lastWdt = none → t.saf.stwHalted = false) ∧
      (∀ c, s.saf.lastWdt = some c → t.saf.stwHalted = decide (s.now.toNat ≤ c.toNat + 4000000000)))

/-! ### Doorbells and the window -/

/-- A doorbell port accepts only writes of the two forms of R21: a read, and any other write, is discarded, counted and
answered FAULT with zero data. -/
def Obligations.DoorbellForms : Prop :=
  ∀ (r : DbReq) (s : State), inService s = true → s.cfl.dbWait = [] →
    (∃ t, exec (.doorbellRead r) s = .next t ∧ dbAnswered s t r true ∧
      t.cfl.window = s.cfl.window ∧ t.cfl.refCnt.format = satInc 32 s.cfl.refCnt.format ∧
      t = { s with cfl := t.cfl, free := t.free }) ∧
    (dbForm r false = true → ∃ t, exec (.doorbellSingle r) s = .next t ∧ dbAnswered s t r true ∧
      t.cfl.window = s.cfl.window ∧ t.cfl.refCnt.format = satInc 32 s.cfl.refCnt.format ∧
      t = { s with cfl := t.cfl, free := t.free }) ∧
    (dbForm r true = true → ∃ t, exec (.doorbellRange r) s = .next t ∧ dbAnswered s t r true ∧
      t.cfl.window = s.cfl.window ∧ t.cfl.refCnt.format = satInc 32 s.cfl.refCnt.format ∧
      t = { s with cfl := t.cfl, free := t.free })

/-- A SINGLE that passes the checks of R125 and finds an ordinary entry free takes it, stamped at its transfer, joins
its slice's spillway over the quota, and is answered DONE (R22, R122, R129, R136, R140). A RANGE of no sources is
answered DONE and counted, one whose first source is under its quota waits for that source's admission (R123). A
doorbell access while the block does not serve is answered FAULT and counted (R64, R65, R67); one that finds the
confluence asleep waits untransferred and wakes it (R386). -/
def Obligations.DoorbellsAdmitted : Prop :=
  (∀ (r : DbReq) (o : DbOk) (s : State), inService s = true → s.cfl.dbWait = [] → s.ordUsed < 7936 → r.emapErr = false →
     (s.checkDb r false = .ok o → mapReads s o.first → ∃ t w, exec (.doorbellSingle r) s = .next t ∧
       t.cfl.window = s.cfl.window ++ [w] ∧ w.src = o.first ∧ w.slice = o.slice ∧ w.stamp = s.stampHclk ∧
       w.origin = r.port.toNat ∧ w.kind = .fire ∧ w.express = s.express o.first ∧ w.expEnt = false ∧
       w.spilled = s.spills o.slice w.express ∧ dbAnswered s t r false ∧ t.cfl.dbWait = [] ∧
       t.cfl.res = s.cfl.res ∧ t.arr = s.arr) ∧
     (s.checkDb r true = .ok o → o.count = 0 → ∃ t, exec (.doorbellRange r) s = .next t ∧
       dbAnswered s t r false ∧ t.cfl.window = s.cfl.window ∧ t.cfl.dbWait = [] ∧
       (t.slc o.slice).cnt.emptyRng = satInc 32 (s.slc o.slice).cnt.emptyRng) ∧
     (s.checkDb r true = .ok o → 0 < o.count → s.spills o.slice (s.express o.first) = false → ∃ t w,
       exec (.doorbellRange r) s = .next t ∧ t.cfl.dbWait = [w] ∧ w.first = o.first ∧ w.count = o.count ∧ w.next = 0 ∧
       w.slice = o.slice ∧ w.stamp = s.stampHclk ∧ w.transferred = true ∧ t.cfl.window = s.cfl.window ∧
       t.cfl.db = s.cfl.db)) ∧
  ∀ (r : DbReq) (s : State),
    (s.fatal.inSeq = false → s.boot.mode ≠ .ready → ∀ c ∈ [Instr.doorbellSingle r, .doorbellRange r, .doorbellRead r],
      ∃ t, exec c s = .next t ∧ dbAnswered s t r true ∧
        t.cfl.refCnt.notReady = satInc 32 s.cfl.refCnt.notReady ∧ t.cfl.window = s.cfl.window ∧
        t = { s with cfl := t.cfl, boot := t.boot } ∧
        t.boot.refusedDb = s.boot.refusedDb + b2n (s.boot.mode == .starting && s.boot.crst)) ∧
    (s.fatal.inSeq = false → s.boot.mode = .ready → s.pwr.phase = 0 → 2 ≤ s.domSt dCFL → s.cfl.dbWait = [] →
      ∃ t w, exec (.doorbellSingle r) s = .next t ∧ t.cfl.dbWait = [w] ∧ w.req = r ∧ w.transferred = false ∧
        t.wakes dCFL = true ∧ t.cfl.db = s.cfl.db)

/-- A SINGLE whose checks R125 lets pass takes a window entry for its source, stamped at its transfer: an ordinary one while
one is free, an express firing else an express one; it is answered DONE, also on the manager page (R121, R122, R126,
R129, R140). A RANGE of ordinary sources over the quota of its slice takes an entry for each, in ascending order with the
one stamp, and is answered DONE; one of no sources is answered DONE and takes none (R123, R136). A waiting write takes a
freed entry and is answered (R130). An admission cycle passes the one ready latch into
resolution and frees it, its allowance unspent by a single firing; an idle cycle earns three, at most 192 (R138,
R139). A class-4 slot for a spillway head, while its slice is below its quota, and the starvation guard's slot, for a
slice with AWEIGHT 0 or QUOTA 0 whatever its count, pass the firing into resolution (R136, R285). -/
def Obligations.WindowAdmission : Prop :=
  (∀ (r : DbReq) (i n : Nat) (s : State), inService s = true → s.cfl.dbWait = [] → r.emapErr = false →
    (mayRing s r false i n 1 → mapReads s n → s.ordUsed < 7936 ∨ (s.express n = true ∧ s.expUsed < 256) → ∃ t,
      exec (.doorbellSingle r) s = .next t ∧ dbAnswered s t r false ∧ t.cfl.window = s.cfl.window ++
        [⟨n, i, s.stampHclk, s.express n, decide (7936 ≤ s.ordUsed), r.port.toNat, s.spills i (s.express n), .fire⟩] ∧
      t.cfl.dbWait = [] ∧ t.cfl.res = s.cfl.res ∧ t.arr = s.arr ∧ t.ctxs = s.ctxs) ∧
    (mayRing s r true i n (dbCount r.data) → s.spills i false = true → s.ordUsed + dbCount r.data ≤ 7936 →
      (∀ j, j < dbCount r.data → s.express (n + j) = false) → ∃ t, exec (.doorbellRange r) s = .next t ∧
      dbAnswered s t r false ∧ t.cfl.window = s.cfl.window ++ ((List.range (dbCount r.data)).map fun j =>
        ⟨n + j, i, s.stampHclk, false, false, r.port.toNat, true, .fire⟩) ∧
      t.cfl.dbWait = [] ∧ t.cfl.res = s.cfl.res ∧ t.arr = s.arr ∧ t.ctxs = s.ctxs)) ∧
  ((∀ (w : DbWait) (s : State), inService s = true → s.cfl.dbWait = [w] → w.checked = true → w.transferred = true →
     w.range = false → w.next = 0 → w.req.emapErr = false → s.ordUsed < 7936 → (∀ p ∈ s.cas.e2e, p.2.held = []) →
     ∃ t x, exec .windowEntryGrant s = .next t ∧ t.cfl.window = s.cfl.window ++ [x] ∧ x.src = w.first ∧
       x.stamp = w.stamp ∧ t.cfl.dbWait = [] ∧ dbAnswered s t w.req false) ∧
   ∀ (n : Nat) (l : Latch) (s : State), inService s = true → s.cfl.dbWait = [] → s.cfl.window = [] →
     (s.cfl.latches = [] → ∃ t, exec .admissionCycle s = .next t ∧
       t = { s with cfl := { s.cfl with allowance := min 192 (s.cfl.allowance + 3), sinceC4 := 0 } }) ∧
     (s.cfl.latches = [(n, l)] → l.valid = true → ∃ t, exec .admissionCycle s = .next t ∧ t.cfl.latches = [] ∧
       t.cfl.res = s.cfl.res ++ [⟨n, l.stamp, l.kind, none⟩] ∧ t.cfl.allowance = s.cfl.allowance ∧ t.arr = s.arr)) ∧
  ∀ (w : WinEnt) (s : State), inService s = true → s.cfl.dbWait = [] → s.cfl.window = [w] → w.express = false →
    (w.spilled = true → s.below w.slice = true → ∃ t, exec .spillwayRelease s = .next t ∧ t.cfl.window = [] ∧
      t.cfl.res = s.cfl.res ++ [⟨w.src, w.stamp, w.kind, some { w with spilled := false }⟩] ∧
      t.cfl.latches = s.cfl.latches ∧ t.arr = s.arr ∧ t.weir = s.weir) ∧
    ((s.slc w.slice).state ≠ .quiescing → (s.slc w.slice).live.aweight = 0 ∨ (s.slc w.slice).live.quota = 0 →
      ∃ t, exec .starvationGuard s = .next t ∧ t.cfl.window = [] ∧
        t.cfl.res = s.cfl.res ++ [⟨w.src, w.stamp, w.kind, some { w with spilled := false }⟩] ∧
        t.cfl.latches = s.cfl.latches ∧ t.arr = s.arr ∧ t.weir = s.weir)

/-- The oldest firing in resolution takes its row of R149 and leaves it, once its accesses have found words that can be
used (R163, R176); one whose words are lost stays. With clean words: STATE as the table says, the rest of the entry and
every other entry as before, the firing's stamp with a new PENDING or ACTIVE_PENDING state; a source with a fixed route
to another device is FORWARDED (R354), a FORWARDED one passes the firing on; the reserved STATE code counts as class
0x09 (R145). A mismatch of the sovereign resolver's copies changes nothing of this (R463). -/
def Obligations.FiringResolves : Prop :=
  ∀ (f : Firing) (rest : List Firing) (a : Access) (c : Compare) (s : State), inService s = true → s.cfl.res = f :: rest →
    s.weir.mode = .lockstep → unspoiled s = true →
    (c = .equal ∨ 16 ≤ f.src →
      ((s.arrayRead f.src a s.now).2 = false → exec (.firingResolution ⟨a, c⟩) s = .next (s.arrayRead f.src a s.now).1) ∧
      ((s.arrayRead f.src a s.now).2 = true → exec (.firingResolution ⟨a, c⟩) s =
        .next (((s.arrayRead f.src a s.now).1.onCfl fun x => { x with res := rest }).resolveRow f.src f.stamp f.kind))) ∧
    (f.src < 16 → c = .replayEqual → exec (.firingResolution ⟨a, c⟩) s =
      exec (.firingResolution ⟨a, .equal⟩) { s with weir := { s.weir with replays := satInc 16 s.weir.replays } }) ∧
    (f.src < 16 → c = .replayFails → ∃ t, exec (.firingResolution ⟨cleanAccess, c⟩) s = .next t ∧
      t.weir.mode = .selftest ∧ t.cfl.res = rest) ∧
    (s.endedProxy f.src = false → (s.proxy f.src).live = false → ∃ t,
      exec (.firingResolution ⟨cleanAccess, .equal⟩) s = .next t ∧ t.cfl.res = rest ∧ t.cfl.window = s.cfl.window ∧
      (s.ownerOf (s.entry f.src) ≠ none → (s.entry f.src).state ≠ .reserved → (s.entry f.src).state ≠ .forwarded →
        t.entry f.src = { s.entry f.src with state := reportState f.kind (s.entry f.src) } ∧
        (∀ m, m ≠ f.src → t.entry m = s.entry m) ∧ t.saf = s.saf ∧
        (reportState f.kind (s.entry f.src) ≠ (s.entry f.src).state →
          reportState f.kind (s.entry f.src) = .pending ∨ reportState f.kind (s.entry f.src) = .activePending →
          (t.plaOf f.src).stamp = lo32 f.stamp ∧ (t.plaOf f.src).promoted = false ∧
          (t.plaOf f.src).missed = false)) ∧
      (s.ownerOf (s.entry f.src) = none → (s.entry f.src).state = .idle → (s.entry f.src).en = true →
        f.kind ≠ .deassert → t.entry f.src = { s.entry f.src with state := .forwarded } ∧ (t.fwd f.src).isSome = true ∧
        ∀ m, m ≠ f.src → t.entry m = s.entry m) ∧
      ((s.entry f.src).state = .forwarded → t.arr = s.arr) ∧
      ((s.entry f.src).state = .reserved → countsClass s t 0x09))

/-- A filtered transition of a captured line: an edge line latches its active edge, merging a second one; a level line
keeps its latest level and stamp; the stamp is three ticks back (R115, R116, R119). After a FATAL reaction it only
counts in LATE (R437); a line that is not captured reports nothing. While TB is DORMANT a watched input starts the wake
of the domains its event needs and of TB; a captured line that becomes active is latched with its stamp (R255, R386,
R388). With TB awake the latches do not watch. -/
def Obligations.WiredLatches : Prop :=
  (∀ (n : BitVec 10) (level : Bool) (s : State), isPin n.toNat = false → exec (.wiredCapture n level) s = .next s) ∧
  (∀ (n : BitVec 10) (level : Bool) (s : State), isPin n.toNat = true → allOn s = true → s.captured n.toNat = false →
     exec (.wiredCapture n level) s = .next (s.onLine n.toNat fun x => { x with pin := level })) ∧
  (∀ (n : BitVec 10) (level : Bool) (s : State), isPin n.toNat = true → allOn s = true →
     s.captured n.toNat = true → (s.line n.toNat).level ≠ s.asserted n.toNat level →
     ∃ t, exec (.wiredCapture n level) s = .next t ∧ (t.line n.toNat).pin = level ∧ t.arr = s.arr ∧
       (s.fatal.inSeq = true → t.fatal.late = satInc 32 s.fatal.late ∧ t.cfl.latches = s.cfl.latches) ∧
       (s.fatal.inSeq = false →
         (t.line n.toNat).level = s.asserted n.toNat level ∧
         ((s.entry n.toNat).trig = true → t.latch n.toNat =
           ⟨true, s.now - 3, if s.asserted n.toNat level then .assert else .deassert⟩) ∧
         ((s.entry n.toNat).trig = false → s.asserted n.toNat level = false →
           t.cfl.latches = s.cfl.latches ∧ (t.line n.toNat).merged = (s.line n.toNat).merged) ∧
         ((s.entry n.toNat).trig = false → s.asserted n.toNat level = true → (s.latch n.toNat).valid = false →
           t.latch n.toNat = ⟨true, s.now - 3, .fire⟩) ∧
         ((s.entry n.toNat).trig = false → s.asserted n.toNat level = true → (s.latch n.toNat).valid = true →
           t.cfl.latches = s.cfl.latches ∧ (t.line n.toNat).merged = satInc 32 (s.line n.toNat).merged))) ∧
  ∀ (w : WakeInput) (refclk : Bool) (s : State),
    (s.domSt dTB ≠ 3 → exec (.dormantWakeLatch w refclk) s = .next s) ∧
    (s.domSt dTB = 3 → (∀ n l, w ≠ .wired n l) → ∃ t, exec (.dormantWakeLatch w refclk) s = .next t ∧
      (∀ d ∈ wakeDomains w, 2 ≤ s.domSt d → t.wakes d = true ∧ t.wakes dTB = true) ∧
      t = { s with pwr := t.pwr } ∧ t.pwr.aoCount = some (s.pwr.aoCount.getD false || !refclk)) ∧
    ∀ n l, s.domSt dTB = 3 → w = .wired n l → isPin n.toNat = true → s.asserted n.toNat l = true →
      s.captured n.toNat = true → (s.entry n.toNat).trig = true ∨ s.asserted n.toNat (s.line n.toNat).pin = false →
      (s.pwr.asyncs.any fun a => a.1 == n.toNat) = false →
      ∃ t, exec (.dormantWakeLatch w refclk) s = .next t ∧
        t.pwr.asyncs = s.pwr.asyncs ++ [(n.toNat, true, s.dormantStamp refclk)] ∧
        (2 ≤ s.domSt dCFL → t.wakes dCFL = true ∧ t.wakes dTB = true)

/-! ### The Weir and the sluices -/

/-- A pass presents the candidate of a context that may take it, with a tag that no presentation, delivery or retired
tag of its port holds: PRESENTED, QUEUED on the port (R182, R220, R221, R227); a source of the wrong world is masked
(R220). A replay that agrees applies the same decision and is counted, one that fails begins the self-test and selects
nothing (R198, R199); a head clean in neither copy is class 0x07 and selects nothing (R176). A slot visit: an empty
slot is only noted as visited; a waiting source one budget old is promoted and counted, one two budgets old and
promoted is missed, counted and reported (R188, R190, R191). -/
def Obligations.WeirPassesAndVisits : Prop :=
  (∀ (c : Nat) (o : BitVec 11) (q : OwnerQ) (x : Cand) (s : State), inService s = true → s.grps = [] → s.cas.proxies = [] →
     s.arr.exits = [] → s.weir.mode = .lockstep → unspoiled s = true → s.weir.sleptAt = none → s.weir.queues = [(c, q)] → c < 1024 → s.ctxCand c = some x →
     s.mayTake c x = true → (s.ctx c).pres = none → x.grp = none → (s.entry x.src).state ≠ .reserved →
     (∃ t, exec (.weirPass ⟨.replayFails, o, .clean, []⟩) s = .next t ∧ t = { s with weir := t.weir } ∧
       t.weir.mode = .selftest ∧ t.weir.replays = satInc 16 s.weir.replays ∧
       t.weir.selftests = satInc 16 s.weir.selftests ∧ t.weir.queues = s.weir.queues ∧
       t.weir.eddy = (s.passInputs :: s.weir.eddy).take 4) ∧
     exec (.weirPass ⟨.replayEqual, o, .clean, []⟩) s =
       exec (.weirPass ⟨.equal, o, .clean, []⟩) { s with weir := { s.weir with replays := satInc 16 s.weir.replays } } ∧
     (∃ t, exec (.weirPass ⟨.equal, o, .lost, []⟩) s = .next t ∧ countsClass s t 0x07 ∧ t.ctxs = s.ctxs ∧ t.arr = s.arr ∧
       t.weir = s.weir) ∧
     (s.worldOk c x = true → (s.tagsUsed (ctxPort c)).length < 4096 → ∃ t p,
       exec (.weirPass ⟨.equal, o, .clean, []⟩) s = .next t ∧
       (t.ctx c).pres = some p ∧ p.stage = .queued ∧ p.src = x.src ∧ p.rank = x.rank ∧ p.tag < 4096 ∧
       p.tag ∉ s.tagsUsed (ctxPort c) ∧ (t.entry x.src).state = .presented ∧
       (t.port (ctxPort c)).down = (s.port (ctxPort c)).down ++ [DMsg.of false c (s.entry x.src).sov (x.rank - 1)
         (vaddrOf (s.ctx c).vbase (s.entry x.src).vec (bootStride s.img.active)) p.tag] ∧
       (∀ d, d ≠ c → (t.ctx d).stack = (s.ctx d).stack ∧ (t.ctx d).pres = (s.ctx d).pres)) ∧
     (s.worldOk c x = false → (s.entry x.src).sov = false → ∃ t, exec (.weirPass ⟨.equal, o, .clean, []⟩) s = .next t ∧
       (t.entry x.src).en = false ∧ (t.ctx c).pres = none ∧ countsClass s t 0x0C)) ∧
  ∀ (k : BitVec 14) (n : Nat) (a : Access) (s : State), inService s = true → s.weirRuns = true →
    s.weir.linkRebuild = false → unspoiled s = true → s.weir.sleptAt = none →
    (SMap.get [] s.weir.wheel k.toNat = [] → ∃ t, exec (.wheelSlotVisit ⟨k, a, .equal⟩) s = .next t ∧
      t.weir.visited = s.slotBoundary k.toNat ∧ t = { s with weir := t.weir } ∧ t.weir.queues = s.weir.queues) ∧
    (SMap.get [] s.weir.wheel k.toNat = [n] → s.frozenSrc n = false → s.waiting n = true → 0 < s.budget n →
      s.weir.longSleep = none → (s.plaOf n).missed = false →
      (s.budget n ≤ s.age (s.plaOf n).stamp → s.age (s.plaOf n).stamp < 2 * s.budget n →
        (s.plaOf n).promoted = false → ∃ t, exec (.wheelSlotVisit ⟨k, cleanAccess, .equal⟩) s = .next t ∧
        (t.plaOf n).promoted = true ∧ (t.plaOf n).missed = false ∧ (t.plaOf n).stamp = (s.plaOf n).stamp ∧
        ∀ i, s.sourceSlice n = some i → (t.slc i).cnt.dlProm = satInc 32 (s.slc i).cnt.dlProm) ∧
      (2 * s.budget n ≤ s.age (s.plaOf n).stamp → (s.plaOf n).promoted = true → ∃ t,
        exec (.wheelSlotVisit ⟨k, cleanAccess, .equal⟩) s = .next t ∧ (t.plaOf n).missed = true ∧ countsClass s t 0x20 ∧
        (t.latch 1001).valid = true ∧
        ∀ i, s.sourceSlice n = some i → (t.slc i).cnt.dlMissed = satInc 32 (s.slc i).cnt.dlMissed))

/-- Transfers on a delivery port: a PRESENT opens its presentation, or is followed by its REVOKE when it was asked
back; a REVOKE leaves the port (R223, R225, R226). A message that waits too long is reported once (R247), a retired tag
is free again after its hold-off (R246). -/
def Obligations.PortTransfers : Prop :=
  ∀ (n : BitVec 4) (m : DMsg) (rest : List DMsg) (p : Pres) (tag : BitVec 12) (s : State),
    (s.fatal.inSeq = false → (s.port n.toNat).down = m :: rest → m.revoke = false → (s.ctx m.ctx).pres = some p →
      p.stage = .queued → p.tag = m.tag → p.gone = false → ∃ t, exec (.present n) s = .next t ∧
      (t.port n.toNat).last = some m ∧
      (p.wantRev = false → (t.ctx m.ctx).pres = some { p with stage := .open_ } ∧ (t.port n.toNat).down = rest ∧
        t = { s with ports := t.ports, ctxs := t.ctxs }) ∧
      (p.wantRev = true → p.sentRev = false → ctxPort m.ctx = n.toNat → (s.port n.toNat).inReset = false →
        (t.port n.toNat).down = revokeMsg m.ctx p.tag :: rest ∧
        (t.ctx m.ctx).pres = some { p with stage := .revoking, sentRev := true })) ∧
    ((s.port n.toNat).down = m :: rest → m.revoke = true → ∃ t, exec (.revoke n) s = .next t ∧
      exec (.present n) s = .next s ∧ (t.port n.toNat).down = rest ∧ (t.port n.toNat).last = some m ∧
      t = { s with ports := t.ports }) ∧
    ((s.port n.toNat).down = m :: rest → (s.port n.toNat).dstall = false → ∃ t, exec (.downstreamStall n) s = .next t ∧
      (t.port n.toNat).dstall = true ∧ countsClass s t 0x0F) ∧
    (∃ t, exec (.retiredTagFree n tag) s = .next t ∧ t = { s with ports := t.ports } ∧
      (t.port n.toNat).retired = (s.port n.toNat).retired.filter (fun r => r.1 ≠ tag.toNat) ∧
      ∀ k, k ≠ n.toNat → t.port k = s.port k)

/-- Answers before the pass that follows each (R232, R235): a TAKE of a presentation that is OPEN, or being revoked,
pushes it and makes its source ACTIVE, one of a WITHDRAWN presentation pushes a void delivery; a DECLINE of an OPEN
presentation holds it for DHOLD, or returns its source to PENDING at once; an answer that names no presentation is
counted (R237, R243). A message that finds the sluice busy waits in the upstream queue (R228); one whose source cannot
be read changes nothing (R164). -/
def Obligations.Answers : Prop :=
  ∀ (u : UpMsg) (p : Pres) (s : State), upApplies s u = true → s.cas.proxies = [] → unspoiled s = true → u.acc = cleanAccess →
    (s.ctx (upCtx u)).pres = some p →
    (∀ c ∈ [Instr.take { u with busy := true }, .decline { u with busy := true }, .complete { u with busy := true }],
      ∃ t e, exec c s = .next t ∧ (t.port u.port.toNat).upq = [e] ∧ e.msg = { u with busy := true } ∧
      t = { s with ports := t.ports }) ∧
    (∀ k, ∀ c ∈ [Instr.take { u with acc := { cleanAccess with ssa := .rowLost k } },
      .decline { u with acc := { cleanAccess with ssa := .rowLost k } }], ∃ t, exec c s = .next t ∧ countsClass s t 0x07 ∧
      t.ctxs = s.ctxs ∧ t.arr = s.arr) ∧
    (p.tag = u.tag.toNat → p.stage = .open_ ∨ p.stage = .revoking → (s.entry p.src).state = .presented → ∃ t : State,
      exec (.take u) s = .next (t.ownPass u.cmp) ∧ (t.ctx (upCtx u)).pres = none ∧
      (t.ctx (upCtx u)).stack =
        ⟨false, p.rank, u.tag.toNat, p.src, (s.plaOf p.src).stamp⟩ :: (s.ctx (upCtx u)).stack ∧
      t.entry p.src = { s.entry p.src with state := .active } ∧ (∀ m, m ≠ p.src → t.entry m = s.entry m) ∧
      p.src ∉ t.arr.masked ∧ (t.ctx (upCtx u)).cnt.takes = satInc 32 (s.ctx (upCtx u)).cnt.takes) ∧
    (p.tag = u.tag.toNat → p.stage = .withdrawn → ∃ t : State, exec (.take u) s = .next (t.ownPass u.cmp) ∧
      (t.ctx (upCtx u)).pres = none ∧ t.arr = s.arr ∧ (t.ctx (upCtx u)).stack =
        ⟨true, p.rank, u.tag.toNat, p.src, (s.plaOf p.src).stamp⟩ :: (s.ctx (upCtx u)).stack) ∧
    (p.tag = u.tag.toNat → p.stage = .open_ → p.dhold ≠ 0 → s.arr.masked.contains p.src = false → ∃ t : State,
      exec (.decline u) s = .next (t.ownPass u.cmp) ∧
      (t.ctx (upCtx u)).pres = some { p with stage := .held, tag := 0 } ∧
      (t.ctx (upCtx u)).stack = (s.ctx (upCtx u)).stack ∧ t.arr = s.arr ∧
      (t.ctx (upCtx u)).cnt.declines = satInc 16 (s.ctx (upCtx u)).cnt.declines) ∧
    (p.tag = u.tag.toNat → p.stage = .open_ → p.dhold = 0 ∨ s.arr.masked.contains p.src = true →
      (s.entry p.src).state = .presented → (s.entry p.src).trig = false → s.ownerOf (s.entry p.src) ≠ none → ∃ t : State,
      exec (.decline u) s = .next (t.ownPass u.cmp) ∧ (t.ctx (upCtx u)).pres = none ∧
      t.entry p.src = { s.entry p.src with state := .pending } ∧ (∀ m, m ≠ p.src → t.entry m = s.entry m) ∧
      (t.ctx (upCtx u)).stack = (s.ctx (upCtx u)).stack) ∧
    (p.tag ≠ u.tag.toNat → ∀ c ∈ [Instr.take u, .decline u], ∃ t : State, exec c s = .next (t.ownPass u.cmp) ∧
      (t.ctx (upCtx u)).cnt.badans = satInc 16 (s.ctx (upCtx u)).cnt.badans ∧ countsClass s t 0x0E ∧
      (t.ctx (upCtx u)).pres = some p ∧ (t.ctx (upCtx u)).stack = (s.ctx (upCtx u)).stack ∧ t.arr = s.arr)

/-- A COMPLETE of the top of the stack pops it: an ACTIVE edge or message source ends IDLE and counts as a completion,
an ACTIVE_PENDING one is PENDING with the stamp of its second firing, an ACTIVE level source is PENDING again if it is
enabled and its level is asserted, else IDLE; a void entry touches no source. One that names another delivery of the
stack counts as out of order, one that names none as stray (R236, R238). -/
def Obligations.Completes : Prop :=
  ∀ (u : UpMsg) (e : Stk) (rest : List Stk) (s : State), upApplies s u = true → s.cas.proxies = [] → unspoiled s = true → u.acc = cleanAccess →
    ((s.ctx (upCtx u)).stack = [] → ∃ t : State, exec (.complete u) s = .next (t.ownPass u.cmp) ∧
      (t.ctx (upCtx u)).stack = [] ∧ t.arr = s.arr ∧ countsClass s t 0x22 ∧
      (t.ctx (upCtx u)).cnt.stray = satInc 16 (s.ctx (upCtx u)).cnt.stray) ∧
    ((s.ctx (upCtx u)).stack = e :: rest →
      (e.tag = u.tag.toNat → ∃ t : State, exec (.complete u) s = .next (t.ownPass u.cmp) ∧ (t.ctx (upCtx u)).stack = rest ∧
        (t.ctx (upCtx u)).pres = (s.ctx (upCtx u)).pres ∧
        (e.void = true → t.arr = s.arr) ∧
        (e.void = false → (s.entry e.src).state = .active → (s.entry e.src).trig = false →
          t.entry e.src = { s.entry e.src with state := .idle } ∧ (∀ m, m ≠ e.src → t.entry m = s.entry m) ∧
          ∀ i, s.sourceSlice e.src = some i → (t.slc i).cnt.cpl = (s.slc i).cnt.cpl + 1) ∧
        (e.void = false → (s.entry e.src).state = .activePending → (s.entry e.src).trig = false →
          s.ownerOf (s.entry e.src) ≠ none →
          t.entry e.src = { s.entry e.src with state := .pending } ∧ (∀ m, m ≠ e.src → t.entry m = s.entry m) ∧
          (t.plaOf e.src).stamp = (s.plaOf e.src).stamp) ∧
        (e.void = false → (s.entry e.src).state = .active → (s.entry e.src).trig = true →
          s.ownerOf (s.entry e.src) ≠ none →
          t.entry e.src = { s.entry e.src with
            state := if (s.entry e.src).en && s.levelOf e.src then .pending else .idle })) ∧
      (e.tag ≠ u.tag.toNat → ∃ t : State, exec (.complete u) s = .next (t.ownPass u.cmp) ∧
        (t.ctx (upCtx u)).stack = (s.ctx (upCtx u)).stack ∧ t.arr = s.arr ∧
        ((rest.any fun x => x.tag == u.tag.toNat) = true →
          (t.ctx (upCtx u)).cnt.order = satInc 16 (s.ctx (upCtx u)).cnt.order ∧ countsClass s t 0x0E) ∧
        ((rest.any fun x => x.tag == u.tag.toNat) = false →
          (t.ctx (upCtx u)).cnt.stray = satInc 16 (s.ctx (upCtx u)).cnt.stray ∧ countsClass s t 0x22)))

/-- Times that run out at a sluice: a decline hold returns its source to PENDING (R243), a WINDOWED mask ends the
presentation of its source (R151, R241), PTMO asks the presentation back and reports it, twice PTMO retires its tag and
returns the source (R245, R246); a time that runs for nothing changes nothing. A FATAL reaction leaves all of them alone
(R437). -/
def Obligations.SluiceTimes : Prop :=
  ∀ (c : BitVec 10) (n : BitVec 21) (p : Pres) (s : State),
    (s.fatal.inSeq = true ∨ (s.ctx c.toNat).pres = none → ∀ i ∈ [Instr.declineHoldExpiry c, .presentationTimeout c,
      .presentationRetire c], exec i s = .next s) ∧
    (s.fatal.inSeq = true ∨ n.toNat ∉ s.arr.masked → exec (.windowedMaskExpiry n) s = .next s) ∧
    (s.fatal.inSeq = false → s.cas.proxies = [] → unspoiled s = true → (s.ctx c.toNat).pres = some p →
      (p.stage = .held → (s.entry p.src).state = .presented → (s.entry p.src).trig = false →
        s.ownerOf (s.entry p.src) ≠ none → ∃ t,
        exec (.declineHoldExpiry c) s = .next t ∧ (t.ctx c.toNat).pres = none ∧
        t.entry p.src = { s.entry p.src with state := .pending } ∧ (∀ m, m ≠ p.src → t.entry m = s.entry m) ∧
        (t.ctx c.toNat).stack = (s.ctx c.toNat).stack) ∧
      (p.stage = .open_ → p.timedOut = false → ∃ t, exec (.presentationTimeout c) s = .next t ∧
        ((t.ctx c.toNat).pres.map fun q => (q.stage, q.timedOut, q.src, q.tag)) =
          some (.revoking, true, p.src, p.tag) ∧ countsClass s t 0x0F ∧
        (t.ctx c.toNat).cnt.timeouts = satInc 16 (s.ctx c.toNat).cnt.timeouts ∧ t.arr = s.arr) ∧
      (p.stage = .revoking → p.timedOut = true → (s.entry p.src).state = .presented →
        (s.entry p.src).trig = false → s.ownerOf (s.entry p.src) ≠ none → ∃ t,
        exec (.presentationRetire c) s = .next t ∧ (t.ctx c.toNat).pres = none ∧
        t.entry p.src = { s.entry p.src with state := .pending } ∧ (∀ m, m ≠ p.src → t.entry m = s.entry m) ∧
        (t.port (ctxPort c.toNat)).retired = (s.port (ctxPort c.toNat)).retired ++ [(p.tag, p.ptmo)] ∧
        (t.ctx c.toNat).cnt.retired = satInc 16 (s.ctx c.toNat).cnt.retired)) ∧
    (s.fatal.inSeq = false → s.cas.proxies = [] → unspoiled s = true → n.toNat ∈ s.arr.masked →
      (s.entry n.toNat).state = .presented → (s.entry n.toNat).en = false → ∃ t, exec (.windowedMaskExpiry n) s = .next t ∧ n.toNat ∉ t.arr.masked ∧
      t.entry n.toNat = { s.entry n.toNat with state := if (s.entry n.toNat).trig then .idle else .pending } ∧
      ∀ m, m ≠ n.toNat → t.entry m = s.entry m)

/-- The completion log's memory: an entry that waits is written to its place of the ring with its slice's world and PID
(R28, R172); a written entry leaves the buffer and NEXT advances, a FAULT stops the ring and drops what waits for it
(R173); a new base takes effect once no entry of the slice is buffered (R174). When the port makes the write is the
model's choice (assumption log entry 70). -/
def Obligations.CompletionLog : Prop :=
  ∀ (i : BitVec 12) (m : MemEnd) (r : LogRec) (l : List (Option Nat)) (v : BitVec 64) (s : State),
    (s.mem.logs = [] → s.memSlices = [] → exec (.logWriteResponse m) s = .next s) ∧
    (s.pending = [] → s.tb.running = false → s.serving = true → (s.ports.all fun p => p.2.upq.isEmpty) = true →
      s.slog = [r] → r.slice = i.toNat → i.toNat ∈ s.slcs.map Prod.fst → (∀ j, (s.slc j).xferLeft = 0) →
      s.mem.logs = [] → ∃ t, step s = .next t ∧ t.mem.logs = [some i.toNat] ∧ t.slog = [r] ∧
      memAsked s t true (s.slc i.toNat).info.world (s.slc i.toNat).info.memPid ((s.slc i.toNat).log.addr +
        BitVec.ofNat 48 (16 * ((s.slc i.toNat).log.next % max 1 (s.slc i.toNat).ringLen))) 16 r.bytes ∧
      t = { s with slcs := t.slcs, mem := t.mem, cfl := { s.cfl with memVnow := t.cfl.memVnow,
                                                                     memNext := t.cfl.memNext } } ∧
      (t.slc i.toNat).log = (s.slc i.toNat).log ∧ ∀ j, j ≠ i.toNat → t.slc j = s.slc j) ∧
    (s.mem.logs = some i.toNat :: l →
      (∃ t, exec (.logWriteResponse .done) s = .next t ∧
        t = { s with slog := t.slog, slcs := t.slcs, mem := { s.mem with logs := l } } ∧
        (∀ a b, s.slog = a ++ r :: b → r.slice = i.toNat → (∀ x ∈ a, x.slice ≠ i.toNat) → t.slog = a ++ b) ∧
        t.slc i.toNat = { s.slc i.toNat with log := (s.slc i.toNat).log.advance (s.slc i.toNat).ringLen } ∧
        ∀ j, j ≠ i.toNat → t.slc j = s.slc j) ∧
      (m ≠ .done → ∃ t, exec (.logWriteResponse m) s = .next t ∧
        t = { s with slog := s.slog.filter fun x => x.slice ≠ i.toNat, slcs := t.slcs, mem := t.mem } ∧
        t.mem = { s.mem with logs := l.map fun x => if x == some i.toNat then none else x } ∧
        t.slc i.toNat = { s.slc i.toNat with log := { (s.slc i.toNat).log with
          en := false, fault := true,
          dropped := satAdd 32 (s.slc i.toNat).log.dropped (s.slog.countP fun x => x.slice = i.toNat) } } ∧
        ∀ j, j ≠ i.toNat → t.slc j = s.slc j)) ∧
    (s.mem.logs = none :: l → exec (.logWriteResponse m) s = .next { s with mem := { s.mem with logs := l } }) ∧
    ((s.slc i.toNat).log.newBase = some v → (∀ x ∈ s.slog, x.slice ≠ i.toNat) → ∃ t,
      exec (.logBaseSwitch i) s = .next t ∧ t = { s with slcs := t.slcs } ∧
      (t.slc i.toNat).log.newBase = none ∧ (t.slc i.toNat).log.next = 0 ∧ (t.slc i.toNat).log.lap = true ∧
      (t.slc i.toNat).log.en = bit v 0 ∧ (t.slc i.toNat).log.addr = BitVec.ofNat 48 (fld v 5 43 * 32) ∧
      ∀ j, j ≠ i.toNat → t.slc j = s.slc j) ∧
    ((s.slc i.toNat).log.newBase = some v → (∃ x ∈ s.slog, x.slice = i.toNat) → exec (.logBaseSwitch i) s = .next s)

/-- A port reset empties the port: nothing offered, every tag free, every stack empty, its ACTIVE edge and message
sources IDLE (R76), but for the contexts of a FROZEN or RESTORING slice, which keep theirs (R290; the model's reading
of R76, assumption log entry 76); its release raises U_READY once step 10 has ended (R32, R77). AWAKE follows its
samples from step 4 on (R37). -/
def Obligations.PortResets : Prop :=
  ∀ (n : BitVec 4) (mask : BitVec 32) (s : State),
    ((s.port n.toNat).inReset = true → exec (.portReset n) s = .next s) ∧
    ((s.port n.toNat).inReset = false → s.fatal.inSeq = false → allOn s = true → s.cas.proxies = [] →
      unspoiled s = true → ∃ t, exec (.portReset n) s = .next t ∧ (t.port n.toNat).inReset = true ∧ (t.port n.toNat).uReady = false ∧
      (t.port n.toNat).down = [] ∧ (t.port n.toNat).retired = [] ∧ (t.port n.toNat).upq = [] ∧
      (∀ c, c < 1024 → ctxPort c = n.toNat → s.frozenCtx c = true → t.ctx c = s.ctx c) ∧
      (∀ c, c < 1024 → ctxPort c ≠ n.toNat → t.ctx c = s.ctx c) ∧
      (∀ c, c < 1024 → ctxPort c = n.toNat → s.frozenCtx c = false → (t.ctx c).stack = [] ∧ (t.ctx c).pres = none ∧
        ∀ e ∈ (s.ctx c).stack, e.void = false → (s.entry e.src).state = .active → (s.entry e.src).trig = false →
          (t.entry e.src).state = .idle)) ∧
    ((s.port n.toNat).inReset = false → exec (.portResetRelease n) s = .next s) ∧
    ((s.port n.toNat).inReset = true → allOn s = true → ∃ t, exec (.portResetRelease n) s = .next t ∧
      t.port n.toNat = { s.port n.toNat with inReset := false, uReady := s.boot.warm || decide (10 ≤ s.boot.step) } ∧
      (∀ k, k ≠ n.toNat → t.port k = s.port k) ∧ t = { s with ports := t.ports }) ∧
    (s.boot.crst = true → 4 ≤ s.boot.step → ∃ t, exec (.awakeChange n mask) s = .next t ∧
      t.port n.toNat = { s.port n.toNat with awake := mask } ∧ (∀ k, k ≠ n.toNat → t.port k = s.port k) ∧
      t = { s with ports := t.ports }) ∧
    (s.boot.crst = false ∨ s.boot.step < 4 → exec (.awakeChange n mask) s = .next s)

/-! ### The register port -/

/-- The register port: an access that breaks R16 ends in FAULT with zero data; a reserved offset, or the upper half of
a 32-bit register, reads as zero and ignores writes (R4, R442); the wrong world (R18, R445) and an unassigned slice's
page (R449) end in FAULT; nothing but the response changes then. SAF_TMR reads in both worlds, SEL_SRC writes its bank
(R448). With CRST_N low nothing happens; behind a waiting access an access waits, stamped with its transfer, and from
the seventeenth on is only offered (R15, R19). -/
def Obligations.RegisterPort : Prop :=
  ∀ (q : RawReq) (s : State),
    (s.boot.crst = false → exec (.registerWrite q) s = .next s ∧ exec (.registerRead q) s = .next s) ∧
    (s.boot.crst = true → s.reg.waiting ≠ [] → rawOk q = true →
      ∀ w c, (w, c) ∈ [(true, Instr.registerWrite q), (false, .registerRead q)] → exec c s = .next { s with reg :=
        if s.reg.waiting.length < 16 then
          { s.reg with waiting := s.reg.waiting ++ [{ accOf q w with at_ := s.now }] }
        else { s.reg with offered := s.reg.offered ++ [accOf q w] } }) ∧
    (portFree s = true →
      (rawOk q = false → ∀ c ∈ [Instr.registerWrite q, .registerRead q],
        ∃ t, exec c s = .next t ∧ onlyAnswered s t q.tag true 0) ∧
      (rawOk q = true → 0x10000 ≤ q.addr.toNat → (s.slc ((q.addr.toNat - 0x10000) / 256 + 1)).state = .unassigned →
        ∀ c ∈ [Instr.registerWrite q, .registerRead q], ∃ t, exec c s = .next t ∧ onlyAnswered s t q.tag true 0) ∧
      (rawOk q = true → q.addr.toNat < 0x10000 →
        (slotReg (q.addr.toNat / 8 * 8) = none ∨
            (q.addr.toNat % 8 = 4 ∧ (slotReg (q.addr.toNat / 8 * 8)).any (fun r => !r.2) = true) →
          ∀ c ∈ [Instr.registerWrite q, .registerRead q], ∃ t, exec c s = .next t ∧ onlyAnswered s t q.tag false 0) ∧
        (∀ r wide, slotReg (q.addr.toNat / 8 * 8) = some (r, wide) → q.addr.toNat % 8 = 0 ∨ wide = true →
          q.world = false →
          (worldOf r = .secure ∨ worldOf r = .secureWrite → ∃ t, exec (.registerWrite q) s = .next t ∧
            onlyAnswered s t q.tag true 0) ∧
          (worldOf r = .secure → ∃ t, exec (.registerRead q) s = .next t ∧ onlyAnswered s t q.tag true 0)) ∧
        (q.addr.toNat = 0x7030 → ∃ t, exec (.registerRead q) s = .next t ∧
          onlyAnswered s t q.tag false (BitVec.ofNat 64 s.saf.tmr)) ∧
        (q.addr.toNat = 0x1000 → q.world = true → ∃ t, exec (.registerWrite q) s = .next t ∧
          t = { s with reg := { s.reg with
            sec := { s.reg.sec with selSrc := fld q.data 0 21, stagedLo := none }, resps := respsAfter s q.tag false 0 } })))

/-- Select registers change their own bank alone: SEL_SRC drops the staged low half, SEL_TGT restarts TGT_STK_IDX and
TGT_GRP_MIDX, a secure SEL_LANE discards every lane's staged settings (R326, R446 to R448). GLB_SMAP_LOOKUP answers a
secure PID by R271 (R272). TB_COUNT reads whole, or by halves of one value (R268). -/
def Obligations.SelectsAndLookups : Prop :=
  ∀ (o : RegOp) (v : BitVec 32) (pid : BitVec 20) (s : State), portFree s = true →
    (pageServes s o = true →
      (∃ t, exec (.selSrcWrite o v) s = .next t ∧ answered s t o false 0 ∧ t = { s with reg := t.reg } ∧
        bankOf t.reg o = { bankOf s.reg o with selSrc := fld v 0 21, stagedLo := none } ∧
        ∀ p, p.page ≠ o.page ∨ (o.page = none ∧ p.world ≠ o.world) → bankOf t.reg p = bankOf s.reg p) ∧
      (∃ t, exec (.selTgtWrite o v) s = .next t ∧ answered s t o false 0 ∧ t = { s with reg := t.reg } ∧
        bankOf t.reg o = { bankOf s.reg o with selTgt := fld v 0 11, stkIdx := 0, grpMidx := 0 } ∧
        ∀ p, p.page ≠ o.page ∨ (o.page = none ∧ p.world ≠ o.world) → bankOf t.reg p = bankOf s.reg p)) ∧
    (o.page = none →
      (∃ t, exec (.selLaneWrite o v) s = .next t ∧ answered s t o false 0 ∧
        t = { s with reg := t.reg, lanes := t.lanes } ∧
        bankOf t.reg o = { bankOf s.reg o with selLane := fld v 0 4 } ∧
        (o.world = false → t.lanes = s.lanes ∧ t.reg.sec = s.reg.sec) ∧
        (o.world = true → t.reg.nor = s.reg.nor ∧ ∀ l, t.lane l = { s.lane l with staged := none })) ∧
      (o.world = true → ∃ t, exec (.smapLookup o pid) s = .next t ∧ answered s t o false 0 ∧
        t = { s with reg := { s.reg with resps := t.reg.resps, lookPid := pid, lookHit := t.reg.lookHit,
                                         lookIdx := t.reg.lookIdx, lookSlc := t.reg.lookSlc } } ∧
        match smapHits s.img.active pid with
        | [h] => t.reg.lookHit = true ∧ t.reg.lookIdx = h ∧ t.reg.lookSlc = smapSlice (recAt s.img.active.smap h)
        | _ => t.reg.lookHit = false ∧ t.reg.lookIdx = 0 ∧ t.reg.lookSlc = 0) ∧
      (o.world = false → ∃ t, exec (.smapLookup o pid) s = .next t ∧ onlyAnswered s t o.tag true 0) ∧
      (∃ t, exec (.tbCountRead o .full) s = .next t ∧ onlyAnswered { s with free := s.free + 1 } t o.tag false s.stampHclk) ∧
      (∃ t, exec (.tbCountRead o .lo) s = .next t ∧ answered s t o false (s.stampHclk &&& 0xFFFFFFFF) ∧
        t = { s with reg := t.reg, free := s.free + 1 } ∧
        bankOf t.reg o = { bankOf s.reg o with tbHi := some (s.stampHclk.extractLsb' 32 32) }) ∧
      (∀ h, (bankOf s.reg o).tbHi = some h → ∃ t, exec (.tbCountRead o .hi) s = .next t ∧
        answered s t o false (h.setWidth 64 <<< 32) ∧ t = { s with reg := t.reg } ∧
        bankOf t.reg o = { bankOf s.reg o with tbHi := none }))

/-- Commits to a message source of an open pool whose route stays: a write of the low half is only staged; a write of
the high half, or of all 64 bits, and one of SRC_EN, change the fields that R155 lets it, in IDLE, and no other source;
in a FROZEN or RESTORING pool they end in FAULT, counted once (R156, R159, R277). A SRC_FIRE of a source whose slice is
ACTIVE takes a window entry stamped now; of another slice it ends in FAULT, counted (R141). -/
def Obligations.SourceWrites : Prop :=
  ∀ (o : RegOp) (n i : Nat) (v : BitVec 32) (w : BitVec 64) (d : CfgData) (en : Bool) (s : State),
    portFree s = true → unspoiled s = true → secureOp o = true → n = s.reg.sec.selSrc → isMsg n = true →
    s.extentSlice n = some i → s.sourceSlice n = some i →
    d = .full w ∨ (∃ a b, d = .hi a ∧ s.reg.sec.stagedLo = some b ∧ w = a.setWidth 64 <<< 32 ||| b.setWidth 64) →
    (∃ t, exec (.srcCfgLoWrite o v) s = .next t ∧ answered s t o false 0 ∧
      t = { s with reg := { s.reg with sec := { s.reg.sec with stagedLo := some v }, resps := t.reg.resps } }) ∧
    ((s.slc i).state = .active → (s.entry n).state = .idle → (s.entry n).trig = false →
      s.remoteRoute (s.entry n).rmode (s.entry n).route = false →
      ((Entry.ofWord w).route = (s.entry n).route → (Entry.ofWord w).rmode = (s.entry n).rmode →
        ∃ t, exec (.srcCfgCommit o d) s = .next t ∧ answered s t o false 0 ∧
          t.entry n = { s.entry n with en := bit w 60, prio := (Entry.ofWord w).prio, vec := (Entry.ofWord w).vec,
                                       dlb := (Entry.ofWord w).dlb } ∧
          (∀ m, m ≠ n → t.entry m = s.entry m) ∧ t.arr.pla = s.arr.pla ∧ (t.slc i).clean = false ∧
          t.reg.sec.stagedLo = none ∧
          n ∉ t.cfl.emapOdd ∧ n ∉ t.cfl.emapLost ∧
          t = { s with arr := t.arr, slcs := t.slcs, reg := t.reg,
                       cfl := { s.cfl with emapOdd := t.cfl.emapOdd, emapLost := t.cfl.emapLost } }) ∧
      (∃ t, exec (.srcEnWrite o en) s = .next t ∧ answered s t o false 0 ∧
        t.entry n = { s.entry n with en := en } ∧ (∀ m, m ≠ n → t.entry m = s.entry m) ∧ t.arr.pla = s.arr.pla ∧
        (t.slc i).clean = false ∧ t = { s with
          arr := t.arr, slcs := t.slcs, reg := t.reg,
          cfl := { s.cfl with emapOdd := t.cfl.emapOdd, emapLost := t.cfl.emapLost } })) ∧
    ((s.slc i).state = .frozen ∨ (s.slc i).state = .restoring →
      ∀ c ∈ [Instr.srcCfgCommit o d, .srcEnWrite o en], ∃ t, exec c s = .next t ∧ answered s t o true 0 ∧
        t = { s with reg := t.reg } ∧ t.reg.sec.refused = satInc 16 s.reg.sec.refused) ∧
    ((s.slc i).state = .active → s.ordUsed < 7936 → ∃ t x, exec (.srcFire o) s = .next t ∧ answered s t o false 0 ∧
      t.cfl.window = s.cfl.window ++ [x] ∧ x.src = n ∧ x.slice = i ∧ x.stamp = s.stampHclk ∧ x.origin = 4 ∧
      x.kind = .fire ∧ x.expEnt = false ∧ t.cfl.res = s.cfl.res ∧ t.arr = s.arr) ∧
    ((s.slc i).state ≠ .active → ∃ t, exec (.srcFire o) s = .next t ∧ answered s t o true 0 ∧
      t = { s with reg := t.reg } ∧ t.reg.sec.fireFlt = satInc 16 s.reg.sec.fireFlt)

/-- TGT_DLV_CFG takes a PTMO of 1 to 1,000 with its DHOLD for the selected context; another PTMO ends in FAULT and is
counted (R244). A member joins a group at its end, LASTOP 0; it leaves it with RRPTR as R218 says; a member of the
other world is refused with LASTOP 3 (R217). -/
def Obligations.TargetsAndGroups : Prop :=
  ∀ (o : RegOp) (v : BitVec 32) (m : BitVec 13) (g : Nat) (s : State), portFree s = true → secureOp o = true →
    (s.reg.sec.selTgt < 1024 →
      (1 ≤ fld v 16 10 → fld v 16 10 ≤ 1000 → ∃ t, exec (.tgtDlvCfgWrite o v) s = .next t ∧ answered s t o false 0 ∧
        t = { s with reg := t.reg, ctxs := t.ctxs } ∧
        t.ctx s.reg.sec.selTgt = { s.ctx s.reg.sec.selTgt with ptmo := fld v 16 10, dhold := fld v 0 12 } ∧
        ∀ c, c ≠ s.reg.sec.selTgt → t.ctx c = s.ctx c) ∧
      (fld v 16 10 = 0 ∨ 1000 < fld v 16 10 → ∃ t, exec (.tgtDlvCfgWrite o v) s = .next t ∧ answered s t o true 0 ∧
        t = { s with reg := t.reg } ∧ t.reg.sec.refused = satInc 16 s.reg.sec.refused)) ∧
    (1024 ≤ s.reg.sec.selTgt → ∃ t, exec (.tgtDlvCfgWrite o v) s = .next t ∧ onlyAnswered s t o.tag true 0) ∧
    (s.reg.sec.selTgt = 1024 + g → g < 512 → (s.grp g).defined = true →
      (s.isLocal m = true → (s.ctx (routeCtx m)).inUse = true → ctxWorld (routeCtx m) = (s.grp g).world →
        m ∉ (s.grp g).members → (s.grp g).members.length < (s.grp g).limit →
        ∃ t, exec (.groupMemberAdd o m) s = .next t ∧ answered s t o false 0 ∧
          t = { s with reg := t.reg, grps := t.grps } ∧ (∀ k, k ≠ g → t.grp k = s.grp k) ∧
          t.grp g = { s.grp g with members := (s.grp g).members ++ [m], lastop := 0,
                                   mchg := satInc 16 (s.grp g).mchg }) ∧
      (ctxWorld (routeCtx m) ≠ (s.grp g).world → ∃ t, exec (.groupMemberAdd o m) s = .next t ∧ answered s t o true 0 ∧
        t.grp g = { s.grp g with lastop := 3 } ∧ countsClass s t 0x0C) ∧
      (m ∉ (s.grp g).members → ∃ t, exec (.groupMemberRemove o m) s = .next t ∧ answered s t o false 0 ∧
        t = { s with reg := t.reg, grps := t.grps } ∧ t.grp g = { s.grp g with lastop := 1 }) ∧
      (∀ l r, (s.grp g).members = l ++ m :: r → m ∉ l → ∃ t, exec (.groupMemberRemove o m) s = .next t ∧
        answered s t o false 0 ∧ t = { s with reg := t.reg, grps := t.grps } ∧ (t.grp g).members = l ++ r ∧
        (t.grp g).lastop = 0 ∧ (t.grp g).mchg = satInc 16 (s.grp g).mchg ∧
        (l ++ r ≠ [] → (t.grp g).rrptr =
          if l.length < (s.grp g).rrptr then (s.grp g).rrptr - 1
          else if (s.grp g).rrptr < l.length then (s.grp g).rrptr
          else if l.length = 0 then r.length - 1 else l.length - 1)))

/-- Slice commands by the secure manager on a slice without a transfer: a state in which R282 does not allow the
command is refused with BAD_STATE, or NOT_QUIESCED for RESET, in FAULT, LASTCMD and RESULT alone written (R280, R281);
an accepted one writes RESULT DONE and has the effect of R282, R283, R288, R289, R291 and R292. -/
def Obligations.SliceCommands : Prop :=
  ∀ (o : RegOp) (i : Nat) (s : State), portFree s = true → secureOp o = true → i = s.reg.sec.selSlc → i ≠ 0 →
    (s.slc i).xfer = .none →
    (∀ k, 1 ≤ k → k ≤ 8 → cmdAllowed k (s.slc i).state = false → ∃ t, exec (slcCmdOf o k) s = .next t ∧
      answered s t o true 0 ∧ t = { s with reg := t.reg, slcs := t.slcs } ∧ (∀ j, j ≠ i → t.slc j = s.slc j) ∧
      t.slc i = { s.slc i with lastcmd := k, result := if k = 3 then 1 else 4 }) ∧
    ((s.slc i).state = .quiesced ∨ (s.slc i).state = .quiescing → s.pinned i = false → ∃ t,
      exec (.activate o) s = .next t ∧ answered s t o false 0 ∧ t = { s with reg := t.reg, slcs := t.slcs } ∧
      t.slc i = { s.slc i with state := .active, clean := false, lastcmd := 1, result := 0 }) ∧
    ((s.slc i).state = .active → ∃ t, exec (.quiesce o) s = .next t ∧ answered s t o false 0 ∧
      t.slc i = { s.slc i with state := .quiescing, lastcmd := 2, result := 0 } ∧ t.cfl.window = s.cfl.window) ∧
    ((s.slc i).state = .quiesced ∨ (s.slc i).state = .frozen → ∃ t, exec (.reset o) s = .next t ∧
      answered s t o false 0 ∧ (t.slc i).state = .quiesced ∧ (t.slc i).clean = true ∧ (t.slc i).cnt = {} ∧
      (t.slc i).spillPeak = 0 ∧ (t.slc i).lastcmd = 3 ∧ (t.slc i).result = 0) ∧
    ((s.slc i).state ≠ .unassigned → ∃ t, exec (.forceReset o) s = .next t ∧ answered s t o false 0 ∧
      (t.slc i).state = (if (s.slc i).state = .active then .quiescing else (s.slc i).state) ∧
      (t.slc i).xfer = .forced ∧ (t.slc i).purging = true ∧ (t.slc i).lastcmd = 4 ∧ (t.slc i).result = 0 ∧
      (∀ x ∈ t.cfl.window, x.slice ≠ i) ∧ ∀ r ∈ t.slog, r.slice ≠ i) ∧
    ((s.slc i).state = .quiesced → s.freezeCheck i = 0 → (∀ x ∈ s.arr.exits, s.extentSlice x.1 ≠ some i) → ∃ t, exec (.freeze o) s = .next t ∧ answered s t o false 0 ∧
      t = { s with reg := t.reg, slcs := t.slcs, free := s.free + 1 } ∧
      t.slc i = { s.slc i with state := .frozen, freezeTick := s.stampSclk, lastcmd := 5, result := 0 }) ∧
    ((s.slc i).state = .frozen →
      (∃ t, exec (.thaw o) s = .next t ∧ answered s t o false 0 ∧ t = { s with reg := t.reg, slcs := t.slcs } ∧
        t.slc i = { s.slc i with state := .quiesced, lastcmd := 8, result := 0 }) ∧
      ((s.slc i).xferLen ≠ 0 →
        saveLength (s.ctxsOf i).length (s.grpsOf i).length (s.slc i).info.extUnits ≤ (s.slc i).xferLen → ∃ t,
        exec (.save o) s = .next t ∧ answered s t o false 0 ∧ t = { s with reg := t.reg, slcs := t.slcs } ∧
        t.slc i = { s.slc i with xfer := .save, xferBytes := 0, saveImg := some (s.saveImage i), lastcmd := 6,
                                 result := 0, runAddr := (s.slc i).xferAddr, runLen := (s.saveImage i).length.toNat,
                                 xferTot := (s.saveImage i).length.toNat,
                                 memVt := (t.slc i).memVt, memLast := (t.slc i).memLast })) ∧
    ((s.slc i).state = .quiesced → (s.slc i).clean = true → (s.slc i).xferLen ≠ 0 → ∃ t,
      exec (.restore o) s = .next t ∧ answered s t o false 0 ∧ t = { s with reg := t.reg, slcs := t.slcs } ∧
      t.slc i = { s.slc i with state := .restoring, xfer := .restore, xferBytes := 0, lastcmd := 7, result := 0,
                               runAddr := (s.slc i).xferAddr, runLen := (s.slc i).xferLen,
                               xferTot := min 128 (s.slc i).xferLen,
                               memVt := (t.slc i).memVt, memLast := (t.slc i).memLast })

/-- Shares, the log base and the transfers of a slice: a committed share waits for the next credit epoch, which makes
it live (R284); a new log base waits for the slice's buffered entries (R174); the drain ends in QUIESCED once nothing
of the slice is in flight (R283); a forced reset ends QUIESCED and CLEAN (R288); a save ends with its bytes counted or
MEM_FAULT (R291); a restore whose read ended in FAULT resets the pool with MEM_FAULT (R292, R293). -/
def Obligations.SliceTransfers : Prop :=
  ∀ (o : RegOp) (v : BitVec 64) (i : BitVec 12) (m : MemEnd) (x : SaveImage) (s : State),
    (portFree s = true → secureOp o = true → s.reg.sec.selSlc = i.toNat →
      (∃ t, exec (.shareCommit o) s = .next t ∧ answered s t o false 0 ∧ t = { s with reg := t.reg, slcs := t.slcs } ∧
        t.slc i.toNat = { s.slc i.toNat with pend := some (s.slc i.toNat).staged }) ∧
      (∃ t, exec (.slcLogBaseWrite o v) s = .next t ∧ answered s t o false 0 ∧
        t = { s with reg := t.reg, slcs := t.slcs } ∧ (t.slc i.toNat).state = (s.slc i.toNat).state ∧
        ((∃ r ∈ s.slog, r.slice = i.toNat) → (t.slc i.toNat).log =
          { (s.slc i.toNat).log with newBase := some (v &&& 0x0000FFFFFFFFFFE1), stagedLo := none }) ∧
        ((∀ r ∈ s.slog, r.slice ≠ i.toNat) → (t.slc i.toNat).log =
          { (s.slc i.toNat).log with addr := BitVec.ofNat 48 (fld v 5 43 * 32), en := bit v 0, newBase := none,
                                     stagedLo := none, next := 0, lap := true }))) ∧
    (∃ t, exec .creditEpoch s = .next t ∧ t = { s with slcs := t.slcs } ∧ ∀ j, t.slc j =
      { s.slc j with live := (s.slc j).pend.getD (s.slc j).live, pend := none }) ∧
    ((s.slc i.toNat).state ≠ .quiescing ∨ (s.slc i.toNat).xfer ≠ .none ∨ s.inflight i.toNat ≠ 0 →
      exec (.quiesceDrainComplete i) s = .next s) ∧
    ((s.slc i.toNat).state = .quiescing → (s.slc i.toNat).xfer = .none → s.inflight i.toNat = 0 →
      (∀ c, c < 1024 → (s.ctx c).slice = i.toNat → (s.ctx c).pres = none) → (∀ r ∈ s.slog, r.slice ≠ i.toNat) → ∃ t,
      exec (.quiesceDrainComplete i) s = .next t ∧ t = { s with slcs := t.slcs } ∧
      t.slc i.toNat = { s.slc i.toNat with state := .quiesced } ∧ ∀ j, j ≠ i.toNat → t.slc j = s.slc j) ∧
    (s.fatal.inSeq = true → exec (.slicePurgeEnd i) s = .next s ∧ exec (.restoreEnd i ⟨m, x⟩) s = .next s) ∧
    (s.fatal.inSeq = false →
      ((s.slc i.toNat).xfer ≠ .forced → exec (.slicePurgeEnd i) s = .next s) ∧
      ((s.slc i.toNat).xfer = .forced → ∃ t, exec (.slicePurgeEnd i) s = .next t ∧
        (t.slc i.toNat).state = .quiesced ∧ (t.slc i.toNat).clean = true ∧ (t.slc i.toNat).cnt = {} ∧
        (t.slc i.toNat).xfer = .none) ∧
      ((s.slc i.toNat).xfer ≠ .restore → exec (.restoreEnd i ⟨m, x⟩) s = .next s) ∧
      ((s.slc i.toNat).xfer = .restore →
        (m ≠ .done → ∃ t, exec (.restoreEnd i ⟨m, x⟩) s = .next t ∧ (t.slc i.toNat).state = .quiesced ∧
          (t.slc i.toNat).clean = true ∧ (t.slc i.toNat).result = 9 ∧ (t.slc i.toNat).xfer = .none) ∧
        (saveLayoutOk x = false → ∃ t, exec (.restoreEnd i ⟨.done, x⟩) s = .next t ∧
          (t.slc i.toNat).state = .quiesced ∧ (t.slc i.toNat).clean = true ∧ (t.slc i.toNat).result = 0x0A) ∧
        (s.restoreCheck i.toNat x = 0 → ∃ t, exec (.restoreEnd i ⟨.done, x⟩) s = .next t ∧
          (t.slc i.toNat).state = .quiesced ∧ (t.slc i.toNat).clean = false ∧ (t.slc i.toNat).result = 0 ∧
          (t.slc i.toNat).xfer = .none ∧ (t.slc i.toNat).cnt.cpl = x.cpl ∧
          (t.slc i.toNat).live = Share.ofWord x.shares ∧ (t.slc i.toNat).xferBytes = x.length.toNat))) ∧
    ((s.slc i.toNat).xfer ≠ .save → exec (.saveEnd i m) s = .next s) ∧
    ((s.slc i.toNat).xfer = .save →
      (∃ t, exec (.saveEnd i .done) s = .next t ∧ (t.slc i.toNat).xfer = .none ∧
        (t.slc i.toNat).xferBytes = (s.slc i.toNat).runLen ∧ (t.slc i.toNat).saveImg = (s.slc i.toNat).saveImg ∧
        (t.slc i.toNat).state = (s.slc i.toNat).state ∧ (t.slc i.toNat).result = (s.slc i.toNat).result ∧
        (t.slc i.toNat).cnt = (s.slc i.toNat).cnt ∧ t = { s with slcs := t.slcs, mem := t.mem, cfl := { s.cfl with
          memVnow := t.cfl.memVnow, memNext := t.cfl.memNext } }) ∧
      (∀ im, s.serving = true → (∀ j, j ≠ i.toNat → s.memWaits j = false) → s.logWaits i.toNat = false →
        i.toNat ∈ s.slcs.map Prod.fst → (s.slc i.toNat).saveImg = some im →
        (s.slc i.toNat).xferTot = (s.slc i.toNat).runLen → (s.slc i.toNat).xferBytes < (s.slc i.toNat).runLen →
        txLen ((s.slc i.toNat).runAddr + BitVec.ofNat 48 (s.slc i.toNat).xferBytes)
          ((s.slc i.toNat).runLen - (s.slc i.toNat).xferBytes) = (s.slc i.toNat).runLen - (s.slc i.toNat).xferBytes →
        ∃ t, exec (.saveEnd i .done) s = .next t ∧ memAsked s t true (s.slc i.toNat).info.world
          (s.slc i.toNat).info.memPid ((s.slc i.toNat).runAddr + BitVec.ofNat 48 (s.slc i.toNat).xferBytes)
          ((s.slc i.toNat).runLen - (s.slc i.toNat).xferBytes)
          (((saveBytes im).drop (s.slc i.toNat).xferBytes).take ((s.slc i.toNat).runLen - (s.slc i.toNat).xferBytes))) ∧
      (m ≠ .done → ∃ t, exec (.saveEnd i m) s = .next t ∧ (t.slc i.toNat).xfer = .none ∧ (t.slc i.toNat).result = 9 ∧
        (t.slc i.toNat).saveImg = none ∧ (t.slc i.toNat).state = (s.slc i.toNat).state ∧
        (t.slc i.toNat).cnt = (s.slc i.toNat).cnt ∧ t = { s with slcs := t.slcs, mem := t.mem, cfl := { s.cfl with
          memVnow := t.cfl.memVnow, memNext := t.cfl.memNext } } ∧
        (0 < (s.slc i.toNat).xferBytes → t = { s with slcs := t.slcs } ∧
          (t.slc i.toNat).xferBytes = (s.slc i.toNat).xferBytes ∧ ∀ j, j ≠ i.toNat → t.slc j = s.slc j)))

/-- Staging: STAGE of a length begins a fetch over MEM_, in a staging under way it is refused with FAIL 0x0C; a fetch
that a response other than DONE ends is REFUSED with a code that no rule states; a fetched image that fails its checks
is REFUSED with the code of the first failure, one that passes is STAGED; COMMIT waits for the epoch, DISCARD forgets
the image (R106, R107). The epoch makes the staged structure active, or refuses it (R108, R109). A normal-world write
of GLB_EPOCH_CTL changes nothing. -/
def Obligations.Staging : Prop :=
  ∀ (o : RegOp) (r : MemEnd) (m : Image) (s : State),
    (portFree s = true → o.page = none →
      (o.world = false → ∀ c ∈ [Instr.stage o, .commit o, .discard o], ∃ t, exec c s = .next t ∧
        onlyAnswered s t o.tag true 0) ∧
      (o.world = true →
        (s.img.stage = .none ∨ s.img.stage = .refused → ∃ t, exec (.stage o) s = .next t ∧ answered s t o false 0 ∧
          (s.img.stageLen = 0 → t = { s with reg := t.reg, img := { s.img with stage := .refused, fail := 2,
                                                                               staged := none } }) ∧
          (s.img.stageLen ≠ 0 → t = { s with
            reg := t.reg, img := { s.img with stage := .fetching, staged := none, fetchLen := s.img.stageLen },
            mem := { s.mem with reqs := t.mem.reqs, made := t.mem.made } } ∧
            memAsked s t false true (bootStwPid s.img.active) s.img.stageAddr s.img.stageLen [])) ∧
        (s.img.stage = .staged → ∃ t, exec (.stage o) s = .next t ∧ answered s t o false 0 ∧
          t = { s with reg := t.reg, img := { s.img with fail := 0x0C } }) ∧
        (s.img.stage ≠ .staged → ∃ t, exec (.commit o) s = .next t ∧ answered s t o false 0 ∧
          t = { s with reg := t.reg, img := { s.img with fail := 0x0C } }) ∧
        (s.img.stage = .staged → s.img.staged = some m → ∃ t, exec (.commit o) s = .next t ∧ answered s t o false 0 ∧
          t.img.stage = .commitPending ∧ t.img.staged = some m ∧ t.img.active = s.img.active) ∧
        (s.img.orphanUnits = [] → ∃ t, exec (.discard o) s = .next t ∧ answered s t o false 0 ∧
          t = { s with reg := t.reg, img := { s.img with stage := .none, staged := none, cleared := false } }))) ∧
    (s.serving = true → s.saf.stwHalted = false → s.saf.stwStop = false →
      (s.img.stage = .fetching →
        (r ≠ .done → ∃ t, exec (.stagingEnd ⟨r, m⟩) s = .next t ∧ t = { s with free := t.free, img := t.img } ∧
          t.img = { s.img with stage := .refused, staged := none, fail := t.img.fail }) ∧
        (s.stageCode m s.img.stwCompat s.img.laneCompat ≠ 0 → ∃ t, exec (.stagingEnd ⟨.done, m⟩) s = .next t ∧
          t = { s with img := { s.img with stage := .refused, staged := none,
                                           fail := s.stageCode m s.img.stwCompat s.img.laneCompat } }) ∧
        (m.hdr.length.toNat ≠ s.img.fetchLen → ∃ t, exec (.stagingEnd ⟨.done, m⟩) s = .next t ∧
          t = { s with img := { s.img with stage := .refused, fail := 2, staged := none } }) ∧
        (s.stageCode m s.img.stwCompat s.img.laneCompat = 0 → ∃ t, exec (.stagingEnd ⟨.done, m⟩) s = .next t ∧
          t = { s with img := { s.img with stage := .staged, staged := some { m with body := normBody m } } })) ∧
      (s.img.stage ≠ .fetching → s.img.stage ≠ .verifying → exec (.stagingEnd ⟨r, m⟩) s = .next s)) ∧
    (s.img.stage ≠ .commitPending → exec .structureEpoch s = .next s) ∧
    (inService s = true → s.img.stage = .commitPending → s.img.staged = some m → s.img.cleared = true →
      s.img.at_ ≤ s.now →
      (s.changeCode m.body = 0 → ∃ t, exec .structureEpoch s = .next t ∧ t.img.stage = .none ∧
        t.img.active = m.body ∧ t.img.activeGen = m.hdr.gen.toNat ∧ t.img.digest = imageDigest m ∧ t.img.staged = none ∧
        t.img.epochs = satInc 16 s.img.epochs ∧ t.img.last = s.now) ∧
      (s.changeCode m.body ≠ 0 → ∃ t, exec .structureEpoch s = .next t ∧ t.img.stage = .refused ∧
        t.img.fail = s.changeCode m.body ∧ t.img.active = s.img.active)) ∧
    (inService s = true → s.now < s.img.at_ → exec .structureEpoch s = .next s)

/-- Secure writes of the safety window: SAF_SIG clears the bits written that are not held, and with the last one the
rails toggle again (R401); SAF_TMR takes 1 to 125 (R400); SAF_LOG_TAIL never passes HEAD (R430). -/
def Obligations.SafetyWrites : Prop :=
  ∀ (o : RegOp) (v : BitVec 32) (s : State), portFree s = true → o.page = none →
    (o.world = false → ∀ c ∈ [Instr.safSigClear o v, .safTmrWrite o v, .logTailWrite o v], ∃ t, exec c s = .next t ∧
      onlyAnswered s t o.tag true 0) ∧
    (o.world = true →
      (∃ t, exec (.safSigClear o v) s = .next t ∧ answered s t o false 0 ∧ t = { s with reg := t.reg, saf := t.saf } ∧
        t.saf = { s.saf with sig := t.saf.sig, rails := t.saf.rails } ∧
        (∀ b, b < 32 → bit t.saf.sig b =
          (bit s.saf.sig b && !(bit v b && b ≠ 2 && b ≠ 7 && b ≠ 0x12 && !bit s.saf.fatalSig b))) ∧
        t.saf.rails = if t.saf.sig = 0 ∧ s.saf.sig ≠ 0 ∧ s.saf.rails = .error then .healthy else s.saf.rails) ∧
      (1 ≤ fld v 0 7 → fld v 0 7 ≤ 125 → ∃ t, exec (.safTmrWrite o v) s = .next t ∧ answered s t o false 0 ∧
        t = { s with reg := t.reg, saf := { s.saf with tmr := fld v 0 7 } }) ∧
      (fld v 0 7 = 0 ∨ 125 < fld v 0 7 → ∃ t, exec (.safTmrWrite o v) s = .next t ∧ onlyAnswered s t o.tag true 0) ∧
      ((fld v 0 8 + 256 - s.saf.tail) % 256 ≤ (s.saf.head + 256 - s.saf.tail) % 256 → ∃ t,
        exec (.logTailWrite o v) s = .next t ∧ answered s t o false 0 ∧
        t = { s with reg := t.reg, saf := { s.saf with tail := fld v 0 8 } }) ∧
      ((s.saf.head + 256 - s.saf.tail) % 256 < (fld v 0 8 + 256 - s.saf.tail) % 256 → ∃ t,
        exec (.logTailWrite o v) s = .next t ∧ onlyAnswered s t o.tag true 0))

/-- The mailbox's claim, commands and release: a free mailbox is claimed for the requester's world with its data area
cleared; a claimed or busy one answers FAULT; the owner starts a command by its code while none runs; the owner or the
secure world releases it (R452, R453). -/
def Obligations.MailboxOwnership : Prop :=
  ∀ (o : RegOp) (s : State), portFree s = true → o.page = none →
    (s.mbx.owned = false → s.mbx.busy = false → ∃ t, exec (.mailboxClaim o) s = .next t ∧ answered s t o false 0 ∧
      t = { s with reg := t.reg, mbx := { s.mbx with owned := true, owner := o.world, data := [] } }) ∧
    (s.mbx.owned = true ∨ s.mbx.busy = true → ∃ t, exec (.mailboxClaim o) s = .next t ∧
      onlyAnswered s t o.tag true 0) ∧
    (s.mbx.owned = true → o.world = true ∨ s.mbx.owner = false → ∃ t, exec (.mailboxRelease o) s = .next t ∧
      answered s t o false 0 ∧ t = { s with reg := t.reg, mbx := { s.mbx with owned := false } }) ∧
    (s.mbx.owned = true → s.mbx.owner = true → o.world = false → ∃ t, exec (.mailboxRelease o) s = .next t ∧
      onlyAnswered s t o.tag true 0) ∧
    ∀ c ∈ [(1, Instr.versions o), (2, .attest o), (3, .certs o), (4, .prodPubkey o)],
      (s.mbx.owned = true → s.mbx.owner = o.world → s.mbx.busy = false → ∃ t, exec c.2 s = .next t ∧
        answered s t o false 0 ∧
        t = { s with reg := t.reg, mbx := { s.mbx with busy := true, cmd := c.1, unusable := false } }) ∧
      (s.mbx.owned = false ∨ s.mbx.owner ≠ o.world ∨ s.mbx.busy = true → ∃ t, exec c.2 s = .next t ∧
        onlyAnswered s t o.tag true 0)

/-- Level requests: one below PWR_PL_FLOOR from the normal world is HELD, one for a retired level RETIRED, and both are
reported (R374, R393); another one starts the change in the order of R373, or waits behind the sequencer's operation
(QUEUED). A secure PWR_PL_FLOOR above the current level requests it (R374); the normal world writes no floor (R375). -/
def Obligations.LevelRequests : Prop :=
  ∀ (o : RegOp) (l : BitVec 2) (s : State), portFree s = true → o.page = none →
    (l.toNat < s.lev.floor → o.world = false → ∃ t, exec (.levelRequest o l) s = .next t ∧ answered s t o false 0 ∧
      t.lev = { s.lev with lastres := 2 } ∧ t.pwr.heldCnt = satInc 16 s.pwr.heldCnt ∧ countsClass s t 0x24) ∧
    (s.lev.floor ≤ l.toNat ∨ o.world = true →
      ((s.lvl l.toNat).retired = true → ∃ t, exec (.levelRequest o l) s = .next t ∧ answered s t o false 0 ∧
        t.lev = { s.lev with lastres := 3 } ∧ t.pwr = s.pwr ∧ countsClass s t 0x24) ∧
      ((s.lvl l.toNat).retired = false → ∃ t, exec (.levelRequest o l) s = .next t ∧ answered s t o false 0 ∧
        t = { s with reg := t.reg, lev := t.lev, pwr := { s.pwr with lowered := false } } ∧
        (s.seqFree = false → t.lev = { s.lev with pend := some (l.toNat, o.world), lastres := 1 }) ∧
        (s.seqFree = true → l.toNat = s.lev.cur → t.lev = { s.lev with lastres := 0 }) ∧
        (s.seqFree = true → s.lev.cur < l.toNat → t.lev = { s.lev with
          vreq := (s.lvl l.toNat).code, vgood := false, op := .raise l.toNat, tgt := l.toNat }) ∧
        (s.seqFree = true → l.toNat < s.lev.cur → t.lev = { s.lev with
          vreq := (s.lvl l.toNat).code, vgood := false, op := .lower l.toNat, cur := l.toNat, tgt := l.toNat }))) ∧
    (o.world = false → ∃ t, exec (.plFloorWrite o l) s = .next t ∧ onlyAnswered s t o.tag true 0) ∧
    (o.world = true →
      (l.toNat ≤ s.lev.cur → ∃ t, exec (.plFloorWrite o l) s = .next t ∧ answered s t o false 0 ∧
        t = { s with reg := t.reg, lev := { s.lev with floor := l.toNat } }) ∧
      (s.lev.cur < l.toNat → (s.lvl l.toNat).retired = false → s.seqFree = false → ∃ t,
        exec (.plFloorWrite o l) s = .next t ∧ answered s t o false 0 ∧
        t.lev = { s.lev with floor := l.toNat, pend := some (l.toNat, true), lastres := 1 }))

/-- Holds are the secure world's: it sets and releases the bits it writes (R379). A sleep request that names no domain
does nothing; one for ON is accepted; a normal-world one that names a domain of the secure world, or a held one, is
refused with that domain in FIRST and reported; an accepted one for RETAIN begins the prepare phase, or waits behind
the sequencer (R380, R382, R385). -/
def Obligations.SleepAndHolds : Prop :=
  ∀ (o : RegOp) (m : BitVec 32) (v : BitVec 64) (d : Nat) (s : State), portFree s = true → o.page = none →
    (o.world = false → ∀ c ∈ [Instr.holdSet o m, .holdRelease o m], ∃ t, exec c s = .next t ∧
      onlyAnswered s t o.tag true 0) ∧
    (o.world = true →
      (∃ t, exec (.holdSet o m) s = .next t ∧ answered s t o false 0 ∧
        t = { s with reg := t.reg, pwr := { s.pwr with hold := s.pwr.hold ||| m.setWidth 28 } }) ∧
      (∃ t, exec (.holdRelease o m) s = .next t ∧ answered s t o false 0 ∧
        t = { s with reg := t.reg, pwr := { s.pwr with hold := s.pwr.hold &&& ~~~ m.setWidth 28 } })) ∧
    (fld v 0 28 = 0 → ∃ t, exec (.sleepRequest o v) s = .next t ∧ onlyAnswered s t o.tag false 0) ∧
    (fld v 0 28 ≠ 0 → fld v 32 2 = 0 → ∃ t, exec (.sleepRequest o v) s = .next t ∧ answered s t o false 0 ∧
      t = { s with reg := t.reg, pwr := { s.pwr with world := o.world, doze := t.pwr.doze, result := 0, first := 31 } } ∧
      ∀ k, k < 28 → bit t.pwr.doze k = (bit s.pwr.doze k && !bit v k)) ∧
    (d < 28 → bit v d = true → fld v 32 2 ≠ 0 → o.world = false →
      (bit s.pwr.owner d = true → (∀ k, k < d → bit v k = true → bit s.pwr.owner k = false) → ∃ t,
        exec (.sleepRequest o v) s = .next t ∧ answered s t o false 0 ∧ countsClass s t 0x24 ∧
        t.pwr = { s.pwr with world := false, result := 2, first := d }) ∧
      ((∀ k, k < 28 → bit v k = true → bit s.pwr.owner k = false) → bit s.pwr.hold d = true →
        (∀ k, k < d → bit v k = true → bit s.pwr.hold k = false) → ∃ t,
        exec (.sleepRequest o v) s = .next t ∧ answered s t o false 0 ∧ countsClass s t 0x24 ∧
        t.pwr = { s.pwr with world := false, result := 1, first := d, heldCnt := satInc 16 s.pwr.heldCnt })) ∧
    (o.world = true → d < 27 → (∀ k, k < 28 → bit v k = decide (k = d)) → fld v 32 2 = 2 → 2 ≤ s.deepestSt d → ∃ t,
      exec (.sleepRequest o v) s = .next t ∧ answered s t o false 0 ∧ t = { s with reg := t.reg, pwr := t.pwr } ∧
      t.pwr.phase = (if s.seqFree then 1 else 4) ∧ t.pwr.named = domBit d ∧ t.pwr.targets = [(d, 2)] ∧
      t.pwr.votes = 0 ∧ t.pwr.dom = s.pwr.dom ∧ t.pwr.reqWorld = true)

/-- Lane settings and PRBS by the secure bank: APPLY takes the staged settings on a lane out of service, RETRAIN begins
a FAILED lane again; on a lane without a logical number of its own, or on a training one, they are refused with
APPLY_RES and FAULT, the settings as before (R326). INJ_ONE inverts one generated bit (R324); LNK_PRBS_ST answers SYNC
and ERRORS and begins the counts again (R329); ONE asks for one injected frame while injection is enabled (R371). -/
def Obligations.LaneRegisters : Prop :=
  ∀ (o : RegOp) (l : Nat) (c : LaneCfg) (s : State), portFree s = true → o.page = none → l = (bankOf s.reg o).selLane →
    (o.world = false → ∀ i ∈ [Instr.apply o, .retrain o, .injOne o, .one o], ∃ t, exec i s = .next t ∧
      onlyAnswered s t o.tag true 0) ∧
    (o.world = true →
      (∀ i ∈ [Instr.apply o, .retrain o],
        ((s.lane l).dup = true → ∃ t, exec i s = .next t ∧ answered s t o true 0 ∧
          t = { s with reg := t.reg, lanes := t.lanes } ∧ t.lane l = { s.lane l with applyRes := 4 }) ∧
        ((s.lane l).dup = false → (s.lane l).state = .training → (s.lane l).staged = none → (s.lane l).cfg.test = false →
          ∃ t, exec i s = .next t ∧ answered s t o true 0 ∧
          t = { s with reg := t.reg, lanes := t.lanes } ∧ t.lane l = { s.lane l with applyRes := 3 })) ∧
      ((s.lane l).dup = false → s.laneBusy l = false → (s.lane l).state = .failed →
        ((s.lane l).staged = some c → c.test = false → ∃ t, exec (.apply o) s = .next t ∧ answered s t o false 0 ∧
          t = { s with reg := t.reg, lanes := t.lanes } ∧ (∀ k, k ≠ l → t.lane k = s.lane k) ∧
          t.lane l = { s.lane l with cfg := c, staged := none, applyRes := 0 }) ∧
        (∃ t, exec (.retrain o) s = .next t ∧ answered s t o false 0 ∧
          t = { s with reg := t.reg, lanes := t.lanes } ∧ (∀ k, k ≠ l → t.lane k = s.lane k) ∧
          t.lane l = { s.lane l with staged := none, tries := 0, phase := 0, applyRes := 0 })) ∧
      (∃ t, exec (.injOne o) s = .next t ∧ answered s t o false 0 ∧
        t = { s with reg := t.reg, lanes := t.lanes, lcnts := t.lcnts } ∧ (t.lane l).cfg = (s.lane l).cfg ∧
        (l < 4 → (s.lane l).cfg.genEn = true → (s.lane l).cfg.injMode = 1 ∨ (s.lane l).cfg.injMode = 2 →
          (t.lcnt l).injected = (s.lcnt l).injected + 1) ∧
        (4 ≤ l ∨ (s.lane l).cfg.genEn = false ∨ (s.lane l).cfg.injMode = 0 → t.lcnts = s.lcnts)) ∧
      (s.cas.injEn = true → s.straps.lcs ≠ 3 → ∃ t, exec (.one o) s = .next t ∧ answered s t o false 0 ∧
        t = { s with reg := t.reg, lauth := t.lauth } ∧ (t.lauthOf (l / 4)).injOne = true ∧
        ∀ p, p ≠ l / 4 → t.lauthOf p = s.lauthOf p) ∧
      (s.cas.injEn = false ∨ s.straps.lcs = 3 → ∃ t, exec (.one o) s = .next t ∧ onlyAnswered s t o.tag true 0)) ∧
    (4 ≤ l → ∃ t, exec (.prbsStatusRead o) s = .next t ∧ onlyAnswered s t o.tag false 0) ∧
    (l < 4 → ∃ t, exec (.prbsStatusRead o) s = .next t ∧
      answered s t o false (pack [(63, 1, b2n (s.lcnt l).sync), (0, 32, (s.lcnt l).errors)]) ∧
      t = { s with reg := t.reg, lcnts := t.lcnts } ∧ (∀ k, k ≠ l → t.lcnt k = s.lcnt k) ∧
      t.lcnt l = { s.lcnt l with errors := 0, bits := 0, bitsRead := (s.lcnt l).bits })

/-! ### Power -/

/-- VGOOD and level changes: a lower, or a raise with good margins, ends at its target with LVL_CHG counted, and with
PL_HELD clear above PL0 (R71); a raise whose check finds the margins low steps the code once more (R373, R391, R392); a
VGOOD that does not return within 200 µs leaves the level and VREQ, LASTRES VGOOD_FAIL, and is reported (R43). -/
def Obligations.LevelChanges : Prop :=
  ∀ (l : Nat) (m : Margins) (ms : List Margins) (s : State), seqAlone s = true →
    (s.lev.op = .lower l ∨ s.lev.op = .raiseEnd l → exec (.vgoodReturn ms) s = .next { s with
      boot := { s.boot with plHeld := s.boot.plHeld && l == 0 }
      lev := { s.lev with vgood := true, cur := l, tgt := l, op := .idle, lastres := 0,
                          lvlChg := satInc 16 s.lev.lvlChg } }) ∧
    (s.lev.op = .raise l → marginsFine m = true → ∃ t, exec (.vgoodReturn (m :: ms)) s = .next t ∧
      t = { s with lev := t.lev, boot := { s.boot with plHeld := s.boot.plHeld && l == 0 } } ∧
      t.lev.vgood = true ∧ t.lev.cur = l ∧ t.lev.tgt = l ∧ t.lev.op = .idle ∧
      t.lev.lastres = 0 ∧ t.lev.vreq = s.lev.vreq ∧ t.lev.lvlChg = satInc 16 s.lev.lvlChg ∧
      (t.lvl l).pmargin = m.p.toNat ∧ (t.lvl l).smargin = m.s.toNat ∧ (t.lvl l).code = (s.lvl l).code) ∧
    (s.lev.op = .raise l → marginsFine m = false → (s.lvl l).code < (s.lvl l).ceil → ∃ t,
      exec (.vgoodReturn [m]) s = .next t ∧ (t.lvl l).code = (s.lvl l).code + 1 ∧ t.lev.vreq = (s.lvl l).code + 1 ∧
      t.lev.vgood = false ∧ t.lev.cur = s.lev.cur ∧ t.lev.op = (if marginsBad m then .raise l else .raiseEnd l) ∧
      countsClass s t 0x25) ∧
    (s.lev.op = .ageStep l → exec (.vgoodReturn ms) s =
      .next { s with lev := { s.lev with vgood := true, op := .ageWait l } }) ∧
    (s.lev.op ≠ .sleepLevel → s.lev.vgood = true ∨ s.lev.op = .idle → exec .vgoodTimeout s = .next s) ∧
    (s.lev.op = .lower l ∨ s.lev.op = .raise l → s.lev.vgood = false → ∃ t, exec .vgoodTimeout s = .next t ∧
      t.lev = { s.lev with op := .idle, tgt := s.lev.cur, lastres := 5 } ∧ countsClass s t 0x24 ∧ t.pwr = s.pwr)

/-- Ageing: a reading is taken only in ACTIVE while the steward runs, which the test port may halt (R390, R409); good margins are noted; low ones raise the
code by one step, self-source 1,006; a level at its ceiling that fails the retire test is retired, but PL0, which
reports the margin class instead (R391, R393). The re-reading after a step ends the loop with good margins. -/
def Obligations.Ageing : Prop :=
  ∀ (m : Margins) (l : Nat) (s : State),
    (s.blockState ≠ 0 ∨ s.fatal.inSeq = true ∨ s.saf.stwHalted = true ∨ s.saf.stwStop = true →
      exec (.ageingReading m) s = .next s) ∧
    (allOn s = true → s.fatal.inSeq = false → s.saf.stwHalted = false → s.saf.stwStop = false → s.seqFree = true → seqAlone s = true →
      l = s.lev.cur → (∀ k, 1 ≤ k → k ≤ 3 → (s.lvl k).code ≤ (s.lvl k).ceil) →
      ∃ t, exec (.ageingReading m) s = .next t ∧ t.lev.reads = s.lev.reads + 1 ∧ t.lev.agePm = m.p.toNat ∧
        t.lev.ageSm = m.s.toNat ∧ t.lev.ageLevel = l ∧ (t.lvl l).pmargin = m.p.toNat ∧
        (t.lvl l).smargin = m.s.toNat ∧
        (marginsFine m = true → t = { s with lev := t.lev } ∧ (t.lvl l).code = (s.lvl l).code ∧
          t.lev.vreq = s.lev.vreq ∧ t.lev.op = .idle ∧ t.lev.cur = l) ∧
        (marginsFine m = false → (s.lvl l).code < (s.lvl l).ceil → (t.lvl l).code = (s.lvl l).code + 1 ∧
          t.lev.vreq = (s.lvl l).code + 1 ∧ t.lev.cur = l ∧ countsClass s t 0x25 ∧
          t.lev.op = if marginsBad m then .ageStep l else .ageLast l) ∧
        (marginsBad m = true → (s.lvl l).ceil ≤ (s.lvl l).code → l = 0 → (t.lvl 0).atCeil = true ∧
          (t.lvl 0).retired = (s.lvl 0).retired ∧ t.lev.vreq = s.lev.vreq ∧ countsClass s t 0x14) ∧
        (marginsBad m = true → (s.lvl l).ceil ≤ (s.lvl l).code → l ≠ 0 → (t.lvl l).retired = true ∧ t.lev.cur < l ∧
          countsClass s t 0x25)) ∧
    ((∀ k, s.lev.op ≠ .ageWait k) → exec (.ageingRestep m) s = .next s) ∧
    (s.lev.op = .ageWait l → s.fatal.inSeq = true ∨ s.saf.stwHalted = true ∨ s.saf.stwStop = true →
      exec (.ageingRestep m) s = .next s) ∧
    (s.lev.op = .ageWait l → seqAlone s = true → s.pwr.waking = 0 → s.lev.vgood = true → s.fatal.inSeq = false → s.saf.stwHalted = false →
      s.saf.stwStop = false → marginsFine m = true → ∃ t, exec (.ageingRestep m) s = .next t ∧
      t = { s with lev := t.lev } ∧ t.lev.op = .idle ∧ (t.lvl l).pmargin = m.p.toNat ∧
      (t.lvl l).code = (s.lvl l).code)

/-- The prepare phase: a vote counts for a named domain that is idle; with the last vote the commit begins, eddy latch
armed, its first stop clamped, retained and without its power request (R44, R382, R383); without every vote in 10 µs
the request ends in TIMEOUT at the lowest domain that has none (R382, R385). -/
def Obligations.SleepVotes : Prop :=
  ∀ (d : BitVec 5) (s : State),
    (s.pwr.phase ≠ 1 ∨ bit s.pwr.named d.toNat = false ∨ s.domIdle d.toNat = false →
      exec (.domainVote d) s = .next s) ∧
    (s.pwr.phase = 1 → bit s.pwr.named d.toNat = true → s.domIdle d.toNat = true → s.pwr.reqWorld = true →
      maskSet s.pwr.votes d.toNat true ≠ s.pwr.named → exec (.domainVote d) s =
        .next { s with pwr := { s.pwr with votes := maskSet s.pwr.votes d.toNat true } }) ∧
    (s.pwr.phase = 1 → s.pwr.named = domBit d.toNat → d.toNat < 27 → s.domIdle d.toNat = true →
      s.pwr.reqWorld = true → s.pwr.votes = 0 → s.pwr.targets = [(d.toNat, 2)] → s.lev.op ≠ .sleepLevel →
      bit s.pwr.req d.toNat = bit s.pwr.ack d.toNat → ∃ t,
      exec (.domainVote d) s = .next t ∧ t = { s with pwr := t.pwr } ∧ t.pwr.phase = 2 ∧
      t.pwr.toStop = [d.toNat] ∧ t.pwr.eddy = { armed := true } ∧ bit t.pwr.req d.toNat = false ∧
      bit t.pwr.isoEn d.toNat = true ∧ bit t.pwr.retEn d.toNat = true ∧ t.pwr.dom = s.pwr.dom) ∧
    (s.pwr.phase ≠ 1 → exec .prepareTimeout s = .next s) ∧
    (s.pwr.phase = 1 → s.lev.pend = none → s.lev.ageHeld = none → bit s.pwr.named d.toNat = true →
      bit s.pwr.votes d.toNat = false → (∀ k, k < d.toNat → bit s.pwr.named k = true → bit s.pwr.votes k = true) → ∃ t,
      exec .prepareTimeout s = .next t ∧ t.pwr.phase = 0 ∧ t.pwr.named = 0 ∧ t.pwr.result = 5 ∧
      t.pwr.first = d.toNat ∧ t.pwr.dom = s.pwr.dom ∧ countsClass s t 0x24)

/-- PWR_ACK, wakes and gating: the acknowledged stop of a commit puts the domain into its state, the last one ends the
request with DONE (R383); the acknowledged wake of a domain in RETAIN makes it ON, isolation and retention released
(R44, R386); work for a sleeping domain raises its PWR_REQ, counted in WAKES (R386); a wake that takes more than 100 µs
is reported once (R389); a DOZE domain that is idle gates again (R381). -/
def Obligations.StopsAndWakes : Prop :=
  ∀ (d : BitVec 5) (ack ds : BitVec 28) (s : State),
    (seqAlone s = true → s.pwr.waking = 0 → s.boot.warmTest = none →
      exec (.pwrAck ack) s = .next { s with pwr := { s.pwr with ack := ack } }) ∧
    (s.lev.pend = none → s.lev.ageHeld = none → nothingWaits s = true → s.lev.op ≠ .sleepLevel → s.pwr.waking = 0 →
      s.pwr.phase = 2 → s.pwr.toStop = [d.toNat] → d.toNat < 27 → d.toNat ≠ 6 → s.pwr.eddy.count = 0 →
      bit s.pwr.req d.toNat = false → bit ack d.toNat = false → s.boot.warmTest = none → ∃ t,
      exec (.pwrAck ack) s = .next t ∧
      t = { s with pwr := t.pwr } ∧ t.domSt d.toNat = SMap.get 0 s.pwr.targets d.toNat ∧
      (∀ k, k ≠ d.toNat → t.domSt k = s.domSt k) ∧ t.pwr.phase = 0 ∧ t.pwr.result = 0 ∧ t.pwr.first = 31) ∧
    (seqAlone s = true → d.toNat < 27 → d.toNat ≠ 6 → s.domSt d.toNat = 2 → s.pwr.lowered = false →
      s.pwr.waking = domBit d.toNat → bit s.pwr.req d.toNat = true → bit ack d.toNat = true → s.boot.warmTest = none →
      ∃ t, exec (.pwrAck ack) s = .next t ∧
      t.domSt d.toNat = 0 ∧ (∀ k, k ≠ d.toNat → t.domSt k = s.domSt k) ∧ t.pwr.waking = 0 ∧
      bit t.pwr.isoEn d.toNat = false ∧ bit t.pwr.retEn d.toNat = false ∧ t = { s with pwr := t.pwr }) ∧
    (bit s.pwr.waking d.toNat = false → exec (.wakeTimeout d) s = .next s) ∧
    (nothingWaits s = true → bit s.pwr.waking d.toNat = true → bit s.pwr.failing d.toNat = false → ∃ t,
      exec (.wakeTimeout d) s = .next t ∧ countsClass s t 0x24 ∧ t.pwr = { s.pwr with
        wakeFail := true, wfDom := if s.pwr.wakeFail then s.pwr.wfDom else d.toNat,
        failing := maskSet s.pwr.failing d.toNat true }) ∧
    (allOn s = true → nothingWaits s = true → exec (.domainWake ds) s = .next s) ∧
    (nothingWaits s = true → s.pwr.phase = 0 → d.toNat < 27 → ds = domBit d.toNat → s.domSt d.toNat = 2 →
      s.domSt dTB = 0 → bit s.pwr.waking d.toNat = false → bit s.pwr.req d.toNat = bit s.pwr.ack d.toNat → ∃ t,
      exec (.domainWake ds) s = .next t ∧
      t = { s with pwr := { s.pwr with waking := maskSet s.pwr.waking d.toNat true,
                                       req := maskSet s.pwr.req d.toNat true, wakes := satInc 16 s.pwr.wakes } }) ∧
    (bit s.pwr.doze d.toNat = true → d.toNat ≠ 27 → s.domSt d.toNat = 0 → s.domIdle d.toNat = true → ∃ t,
      exec (.dozeRegate d) s = .next t ∧ t = { s with pwr := { s.pwr with dom := t.pwr.dom }, weir := t.weir } ∧
      (d.toNat ≠ 6 → t.weir = s.weir) ∧
      t.domSt d.toNat = 1 ∧ ∀ k, k ≠ d.toNat → t.domSt k = s.domSt k) ∧
    (bit s.pwr.doze d.toNat = false ∨ d.toNat = 27 ∨ s.domSt d.toNat ≠ 0 ∨ s.domIdle d.toNat = false →
      exec (.dozeRegate d) s = .next s)

/-! ### Timebase -/

/-- Markers and the AOCLK ratio, outside a start: a calibration window gives ten times its REFCLK cycles, adopted
within 0.1 % of the window before (R254); a MARKER goes out with the next number and its instant, a received one waits
for its TIME frame (R337); an identical TIME frame confirms it: STATUS and, with both instants known, TB_DLY are taken
(R338); on the upstream of an ALIGNED device an exchange within 2 ns joins the mean of the last 16 offsets, which the
phase steps then correct, a single one beyond is left out of it, and HOPS follows the upstream's (R258, R261, R267).
-/
def Obligations.TimeExchanges : Prop :=
  ∀ (r : BitVec 32) (p : BitVec 2) (m : MarkerMsg) (at_ : BitVec 48) (x : Exchange) (s : State),
    s.boot.mode ≠ .starting →
    (∃ t, exec (.aoclkCalibration r) s = .next t ∧
      t = { s with tb := { s.tb with aoWindow := some (10 * r.toNat), aoRatio := t.tb.aoRatio } } ∧
      (s.tb.aoWindow = none → t.tb.aoRatio = s.tb.aoRatio) ∧
      (∀ q, s.tb.aoWindow = some q → t.tb.aoRatio =
        if 1000 * (10 * r.toNat) ≤ 1001 * q ∧ 999 * q ≤ 1000 * (10 * r.toNat) then 10 * r.toNat
        else s.tb.aoRatio)) ∧
    ((s.lport p.toNat).state ≠ .up → exec (.markerSend p) s = .next s ∧ exec (.marker p m at_) s = .next s ∧
      exec (.time p m) s = .next s) ∧
    ((s.lport p.toNat).state = .up →
      (s.tb.running = false ∨ (s.lport p.toNat).lanes.idleTx = true → exec (.markerSend p) s = .next s) ∧
      (s.tb.running = true → (s.lport p.toNat).lanes.idleTx = false → ∃ t, exec (.markerSend p) s = .next t ∧
        t.mark p.toNat = { s.mark p.toNat with
          next := (s.mark p.toNat).next + 1
          sent := (((s.mark p.toNat).next, s.instant) :: (s.mark p.toNat).sent).take 2 } ∧
        t.tb.count = s.tb.count ∧ (canSend s p.toNat = true →
          (t.lport p.toNat).seq = (s.lport p.toNat).seq + 1)) ∧
      (∃ t, exec (.marker p m at_) s = .next t ∧ t = { s with tb := t.tb } ∧
        t.mark p.toNat = { s.mark p.toNat with
          pending := some m
          rcvd := ((m.seq, at_) :: (s.mark p.toNat).rcvd).take 2 } ∧
        ∀ q, q ≠ p.toNat → t.mark q = s.mark q) ∧
      (s.fatal.inSeq = true → ∃ t, exec (.time p m) s = .next t ∧
        t = { s with fatal := { s.fatal with late := satInc 32 s.fatal.late } }) ∧
      (s.fatal.inSeq = false → (s.mark p.toNat).pending ≠ some m → exec (.time p m) s = .next s) ∧
      (s.fatal.inSeq = false → (s.mark p.toNat).pending = some m → s.exchange p.toNat m = some x →
        (s.tb.tracking = false → s.cas.role = 0 ∨ s.cas.role = 2 → ∃ t, exec (.time p m) s = .next t ∧
          t = { s with tb := t.tb } ∧ t.mark p.toNat = { s.mark p.toNat with
            pending := none, hops := m.hops.toNat, state := m.state.toNat } ∧
          (t.tbPort p.toNat).rtt = BitVec.ofInt 24 x.rtt ∧ (t.tbPort p.toNat).oneway = BitVec.ofInt 24 x.oneway) ∧
        (s.tb.state = .aligned → s.tb.uport = p.toNat → m.hops.toNat < 7 → m.state.toNat ≠ 0 → m.state.toNat ≠ 4 →
          -512 ≤ x.offset → x.offset ≤ 512 → ∃ t, exec (.time p m) s = .next t ∧ t = { s with tb := t.tb } ∧
          t.tb.offs = (x.offset :: s.tb.offs).take 16 ∧
          t.tb.offset = meanOffset ((x.offset :: s.tb.offs).take 16) ∧ t.tb.slew = slewOf t.tb.offset.toInt ∧
          t.tb.state = .aligned ∧ t.tb.jumps = 0 ∧ t.tb.hops = m.hops.toNat + 1 ∧ t.tb.count = s.tb.count) ∧
        (s.tb.state = .aligned → s.tb.uport = p.toNat → m.hops.toNat < 7 → m.state.toNat ≠ 0 → m.state.toNat ≠ 4 →
          s.tb.jumps = 0 → x.offset < -512 ∨ 512 < x.offset → ∃ t, exec (.time p m) s = .next t ∧
          t = { s with tb := t.tb } ∧ t.tb.offs = s.tb.offs ∧ t.tb.offset = s.tb.offset ∧ t.tb.slew = s.tb.slew ∧
          t.tb.state = .aligned ∧ t.tb.jumps = 1 ∧ t.tb.count = s.tb.count)))

/-- Losses and faults of the timebase, outside a start: without another source the loss of the upstream begins
HOLDOVER, class 0x11 while its port is UP (R264, R267); its end, a lost PLL, a mismatch of the counters and a wrong
rate leave the timebase FREE with TIME_UNALIGNED set, the faults with their flag and class 0x11 (R264, R267); a
relocked headwater is SOURCE again. -/
def Obligations.TimeFaults : Prop :=
  ∀ (good : BitVec 64) (ticks : BitVec 32) (s : State), s.boot.mode ≠ .starting →
    (s.tb.tracking = false → exec .markerLossTimeout s = .next s) ∧
    (s.tb.tracking = true → (∀ q, q < 4 → q ≠ s.tb.uport → s.offers q = false) →
      ∃ t, exec .markerLossTimeout s = .next t ∧ t.tb.state = .holdover ∧ t.tb.holdFrom = s.now ∧
      t.tb.hold = 0 ∧ t.tb.count = s.tb.count ∧ ((s.lport s.tb.uport).state = .up → countsClass s t 0x11) ∧
      ((s.lport s.tb.uport).state ≠ .up → t = { s with tb := t.tb })) ∧
    (s.tb.state ≠ .holdover → exec .holdoverExpiry s = .next s) ∧
    (s.tb.state = .holdover → ∃ t, exec .holdoverExpiry s = .next t ∧ t.tb.state = .free ∧ t.tb.hops = 0 ∧
      t.tb.hold = s.holdNow ∧ t.boot.timeUnaligned = true ∧ countsClass s t 0x23 ∧ t.tb.count = s.tb.count) ∧
    (s.tb.running = false → ∀ c ∈ [Instr.pllLost, .countMismatch good, .rateCheck ticks], exec c s = .next s) ∧
    (s.tb.running = true →
      (∃ t, exec .pllLost s = .next t ∧ t.tb.state = .free ∧ t.tb.onAoclk = true ∧ t.tb.pllLost = true ∧
        t.boot.timeUnaligned = true ∧ countsClass s t 0x11 ∧ t.tb.count = s.tb.count) ∧
      (∃ t, exec (.countMismatch good) s = .next t ∧ t.tb.state = .free ∧ t.tb.countMis = true ∧ t.tb.count = good ∧
        t.boot.timeUnaligned = true ∧ countsClass s t 0x11) ∧
      (rateFault s.tb.aoRatio ticks.toNat = false → exec (.rateCheck ticks) s = .next s) ∧
      (rateFault s.tb.aoRatio ticks.toNat = true → ∃ t, exec (.rateCheck ticks) s = .next t ∧ t.tb.state = .free ∧
        t.tb.onAoclk = true ∧ t.tb.rate = true ∧ t.boot.timeUnaligned = true ∧ countsClass s t 0x11)) ∧
    (s.tb.onAoclk = false → exec .pllRelock s = .next s) ∧
    (s.tb.onAoclk = true → s.cas.role = 2 → ∃ t, exec .pllRelock s = .next t ∧ t.tb.onAoclk = false ∧
      t.tb.state = .source ∧ t.tb.hops = 0 ∧ t.boot.timeUnaligned = false) ∧
    (s.tb.onAoclk = true → s.cas.role = 0 → exec .pllRelock s =
      .next { s with tb := { s.tb with onAoclk := false } })

/-! ### Lanes -/

/-- Training: a TS block advances a lane in cold training and bounds its de-emphasis request (R307, R309); an attempt
that fails is counted, the third one makes the lane FAILED (R308); one that passes anchors its codes and, with a lane
in service, offers the lane by UP (R308, R318); a FAILED lane or a DOWN port begins again (R308, R348). A lane in
service that is lost, by its CDR, by its signal or by 8 consecutive invalid headers, leaves its port's stripe for
RETRAINING (R306, R314, R316); drift within 2 codes of the anchors is taken, on an only lane the re-anchor is deferred
(R311). -/
def Obligations.LaneTraining : Prop :=
  ∀ (l : BitVec 4) (p : BitVec 2) (m : TsMsg) (r : Attempt) (c : LaneCodes) (bs : List (BitVec 130)) (s : State),
    s.boot.mode = .ready → s.fatal.inSeq = false →
    ((s.lane l.toNat).state = .inService → exec (.ts l m) s = .next s ∧
      exec (.trainingAttemptEnd l r c) s = .next s) ∧
    ((s.lane l.toNat).state = .detect → (s.lane l.toNat).logical < casLanes s.img.active (l.toNat / 4) →
      (s.lane l.toNat).logical < m.lanes.toNat → ∃ t, exec (.ts l m) s = .next t ∧
      t = { s with lanes := t.lanes, lports := t.lports } ∧ (t.lane l.toNat).state = .training ∧
      (t.lane l.toNat).phase = max 1 (s.lane l.toNat).phase ∧
      (t.lport (l.toNat / 4)).lanes.lanes = min (casLanes s.img.active (l.toNat / 4)) m.lanes.toNat ∧
      (m.reqVal = true → (t.lane l.toNat).cfg.deemph =
        min 15 (max (m.mapped.toNat - 2) (min (m.mapped.toNat + 2) m.deemph.toNat))) ∧
      (m.reqVal = false → (t.lane l.toNat).cfg = (s.lane l.toNat).cfg)) ∧
    ((s.lane l.toNat).state = .retraining → (s.lane l.toNat).upSent = false →
      (s.lport (l.toNat / 4)).state = .up →
      (attemptPasses r = false → (s.lane l.toNat).tries < 2 → ∃ t, exec (.trainingAttemptEnd l r c) s = .next t ∧
        t = { s with lanes := t.lanes, lcnts := t.lcnts } ∧
        t.lane l.toNat = { (s.lane l.toNat).unlocked with tries := (s.lane l.toNat).tries + 1, phase := 0 } ∧
        (t.lcnt l.toNat).retrains = satInc 16 (s.lcnt l.toNat).retrains) ∧
      (attemptPasses r = false → 2 ≤ (s.lane l.toNat).tries → ∃ t, exec (.trainingAttemptEnd l r c) s = .next t ∧
        (t.lane l.toNat).state = .failed ∧ (t.lane l.toNat).tries = 3 ∧ countsClass s t 0x10) ∧
      (attemptPasses r = true → (s.lport (l.toNat / 4)).lanes.txMask ≠ 0 → ∃ t,
        exec (.trainingAttemptEnd l r c) s = .next t ∧
        t = { s with lanes := t.lanes, lcnts := t.lcnts, lports := t.lports, free := s.free + 1 } ∧
        t.lane l.toNat = { (s.lane l.toNat).trained c with upSent := true, cal := Config.calAsym l.toNat s.free } ∧
        (t.lane l.toNat).ctleAnc = c.ctle ∧ (t.lane l.toNat).bwAnc = c.bw ∧ (t.lane l.toNat).phAnc = c.ph ∧
        (t.lport (l.toNat / 4)).lanes.sent = some ⟨3, (s.lane l.toNat).logical, 0,
          (s.lport (l.toNat / 4)).lanes.txMask⟩)) ∧
    ((s.lane l.toNat).state = .failed → 3 ≤ (s.lane l.toNat).tries → ∃ t, exec (.failedLaneRetry l) s = .next t ∧
      t = { s with lanes := t.lanes } ∧ t.lane l.toNat = { s.lane l.toNat with tries := 0, phase := 0 } ∧
      ∀ k, k ≠ l.toNat → t.lane k = s.lane k) ∧
    ((s.lane l.toNat).state ≠ .failed → exec (.failedLaneRetry l) s = .next s) ∧
    ((s.lport p.toNat).state ≠ .down ∨ s.cas.excluded = true → exec (.portRetry p) s = .next s) ∧
    ((s.lport p.toNat).state = .down → s.cas.excluded = false → ∃ t, exec (.portRetry p) s = .next t ∧
      t = { s with lanes := t.lanes, lports := t.lports } ∧ (t.lport p.toNat).state = .training ∧
      (t.lport p.toNat).lanes.txMask = 0 ∧ (t.lport p.toNat).seq = 0 ∧ ∀ q, q ≠ p.toNat → t.lport q = s.lport q) ∧
    ((s.lane l.toNat).state = .inService → s.laneAt (l.toNat / 4) (s.lane l.toNat).logical = some l.toNat →
      (∃ k, k < 4 ∧ k ≠ (s.lane l.toNat).logical ∧ bit (s.lport (l.toNat / 4)).lanes.txMask k = true) →
      ∀ why, why = .cdr ∨ why = .signal ∨ (why = .blocks bs ∧ bs.length = 8 ∧ (s.lane l.toNat).blockLock = true ∧
        (s.lane l.toNat).cfg.loop = 0 ∧
        ∀ b ∈ bs, syncOk (blkHdr (if (s.lane l.toNat).rxInv then ~~~b else b)) = false) → ∃ t,
      exec (.laneLoss ⟨l, why⟩) s = .next t ∧ t = { s with lanes := t.lanes, lcnts := t.lcnts, lports := t.lports } ∧
      (t.lane l.toNat).state = .retraining ∧ (t.lane l.toNat).reason = some .lost ∧
      bit (t.lport (l.toNat / 4)).lanes.txMask (s.lane l.toNat).logical = false ∧
      (t.lport (l.toNat / 4)).lanes.down = some ((s.lane l.toNat).logical, .lost) ∧
      (t.lcnt l.toNat).losses = satInc 16 (s.lcnt l.toNat).losses) ∧
    ((s.lane l.toNat).state ≠ .inService → exec (.driftGuard l c) s = .next s) ∧
    ((s.lane l.toNat).state = .inService → (s.lport (l.toNat / 4)).lanes.idleRx = false →
      ((s.lane l.toNat).clamped c = c → ∃ t, exec (.driftGuard l c) s = .next t ∧ t = { s with lanes := t.lanes } ∧
        t.lane l.toNat = { s.lane l.toNat with ctle := c.ctle, bw := c.bw, ph := c.ph }) ∧
      ((s.lane l.toNat).clamped c ≠ c → s.otherIn (l.toNat / 4) l.toNat = false → ∃ t,
        exec (.driftGuard l c) s = .next t ∧ t = { s with lanes := t.lanes, lcnts := t.lcnts } ∧
        t.lane l.toNat = { (s.lane l.toNat).withCodes ((s.lane l.toNat).clamped c) with deferred := true } ∧
        (t.lcnt l.toNat).drift = satInc 16 (s.lcnt l.toNat).drift))

/-- The LANE exchange and ALIGN: each period counts, its ALIGN goes out before the frames that wait, and its MASK holds
from the next one (R305, R318); a received ALIGN resets the descramblers of the lanes on which it came (R304); UP of
the partner is noted (R318); a removal that the partner asks for is answered with DOWN_ACK and takes the lane out
(R314); DOWN_ACK of the same MASK ends this end's removal (R314), which is repeated and, unanswered, takes the port
DOWN (R315). -/
def Obligations.LaneExchange : Prop :=
  ∀ (p k r : BitVec 2) (mask heard : BitVec 4) (n : BitVec 32) (s : State), s.boot.mode = .ready →
    ((s.lport p.toNat).state = .disabled → ∀ c ∈ [Instr.alignPeriod p, .align p mask ⟨n, heard⟩, .laneDown p k r mask],
      exec c s = .next s) ∧
    ((s.lport p.toNat).state ≠ .disabled → (∀ l ∈ portLanes p.toNat, (s.lane l).deferred = false) →
      ((s.lport p.toNat).lanes.idleTx = false → ∃ t, exec (.alignPeriod p) s = .next t ∧
        t = { s with lanes := t.lanes, lports := t.lports } ∧ t.lport p.toNat = { s.lport p.toNat with
          lanes := { (s.lport p.toNat).lanes.control (.align (s.lport p.toNat).lanes.nextMask
                       ((s.lport p.toNat).lanes.alignCnt + 1)) with
                     alignCnt := (s.lport p.toNat).lanes.alignCnt + 1
                     txMask := (s.lport p.toNat).lanes.nextMask } }) ∧
      (∃ t, exec (.align p mask ⟨n, heard⟩) s = .next t ∧ t = { s with lanes := t.lanes, lports := t.lports } ∧
        (t.lport p.toNat).lanes.idleRx = false ∧ (t.lport p.toNat).lanes.alignRx = n ∧
        ((s.lport p.toNat).lanes.txMask &&& ~~~heard = 0 → (t.lport p.toNat).lanes.waking = false) ∧
        (t.lport p.toNat).lanes.txMask = (s.lport p.toNat).lanes.txMask ∧
        (∀ l ∈ portLanes p.toNat, (s.lane l).state ≠ .disabled → bit heard (s.lane l).logical = true →
          (t.lane l).rxScr = scrReset (s.lane l).logical) ∧
        ∀ j, j < 4 → bit (t.lport p.toNat).lanes.rxMask j = true → bit mask j = true)) ∧
    (s.laneAt p.toNat k.toNat = none → exec (.up p k) s = .next s) ∧
    (∀ l, s.laneAt p.toNat k.toNat = some l →
      ((s.lane l).state = .inService → exec (.up p k) s = .next s) ∧
      ((s.lane l).state ≠ .inService → (s.lane l).upSent = false → ∃ t, exec (.up p k) s = .next t ∧
        t = { s with lanes := t.lanes } ∧ t.lane l = { s.lane l with upRcvd := true }) ∧
      ((s.lane l).state ≠ .inService → (s.lane l).upSent = true → ∃ t, exec (.up p k) s = .next t ∧
        (t.lane l).upRcvd = true ∧ bit (t.lport p.toNat).lanes.nextMask (s.lane l).logical = true)) ∧
    ((s.lport p.toNat).state = .up → (∃ j, j < 4 ∧ j ≠ k.toNat ∧ bit (s.lport p.toNat).lanes.txMask j = true ∧
        (bit (s.lport p.toNat).lanes.rxMask j = true → bit mask j = true)) →
      ∃ t, exec (.laneDown p k r mask) s = .next t ∧ t = { s with lanes := t.lanes, lports := t.lports } ∧
        (t.lport p.toNat).lanes.sent = some ⟨2, k.toNat, r.toNat, mask⟩ ∧
        bit (t.lport p.toNat).lanes.txMask k.toNat = false ∧ bit (t.lport p.toNat).lanes.rxMask k.toNat = false ∧
        (t.lport p.toNat).state = .up) ∧
    (∃ t, exec (.downAck p mask) s = .next t ∧ t = { s with lports := t.lports } ∧
      (t.lport p.toNat).lanes.down =
        if (s.lport p.toNat).lanes.txMask = mask then none else (s.lport p.toNat).lanes.down) ∧
    ((s.lport p.toNat).lanes.down = none → exec (.laneDownRepeat p) s = .next s ∧
      exec (.downAckTimeout p) s = .next s) ∧
    (∀ d, (s.lport p.toNat).lanes.down = some d →
      (∃ t, exec (.laneDownRepeat p) s = .next t ∧ t = { s with lports := t.lports } ∧
        (t.lport p.toNat).lanes.downs = (s.lport p.toNat).lanes.downs + 1 ∧
        (t.lport p.toNat).lanes.sent = some ⟨1, d.1, d.2.code, (s.lport p.toNat).lanes.txMask⟩) ∧
      ((s.lport p.toNat).state ≠ .quarantined → ∃ t, exec (.downAckTimeout p) s = .next t ∧
        (t.lport p.toNat).state = .down ∧ (t.lport p.toNat).reason = 2) ∧
      ((s.lport p.toNat).state = .quarantined → exec (.downAckTimeout p) s = .next s))

/-- Electrical idle, block lock and PRBS: a transmitter sends EIOS and stops, EIOS freezes the lanes in service of the
receiver (R312), the exit and a received burst end it with a burst and ALIGN (R313), a port on which no lane locks in
20 µs is DOWN (R313); a lane that has received 64 consecutive valid headers goes on training, or returns to service
from idle, with fewer it does not lock (R306, R313); a generator inverts a bit at its period (R324).
The PRBS checker of a lane of port 0 takes the raw bits of its pad: a checker that starts anew takes the bits of its
polynomial's generator, wherever in the sequence that stands, and is in SYNC once twice the degree have been predicted;
in SYNC it counts each bit, the right ones without an error, and with 64 wrong ones the errors and drops SYNC (R322,
R323). A lane that has no checker, whose checker is off, or that ignores its pad, takes nothing. -/
def Obligations.IdleAndPrbs : Prop :=
  (∀ (p : BitVec 2) (l : BitVec 4) (bs : List (BitVec 130)) (s : State), s.boot.mode = .ready →
    s.fatal.inSeq = false →
    ((s.lport p.toNat).state = .disabled → ∀ c ∈ [Instr.electricalIdleEntry p, .eios p, .squelchBurst p,
      .electricalIdleExit p], exec c s = .next s) ∧
    ((s.lport p.toNat).lanes.idleTx = true → exec (.electricalIdleEntry p) s = .next s) ∧
    ((s.lport p.toNat).state ≠ .disabled →
      ((s.lport p.toNat).lanes.idleTx = false →
        (∃ t, exec (.electricalIdleEntry p) s = .next t ∧ t = { s with lports := t.lports } ∧
          t.lport p.toNat = { s.lport p.toNat with
            lanes := { (s.lport p.toNat).lanes.control .eios with idleTx := true, waking := false } }) ∧
        (allOn s = true → exec (.squelchBurst p) s = .next s)) ∧
      (∃ t, exec (.eios p) s = .next t ∧ t = { s with lports := t.lports, lanes := t.lanes } ∧
        (t.lport p.toNat).lanes.idleRx = true ∧ (∀ k, k / 4 ≠ p.toNat → t.lane k = s.lane k) ∧
        ∀ k, k / 4 = p.toNat → t.lane k = if (s.lane k).state = .inService then
          { (s.lane k).unlocked with state := .idle } else s.lane k) ∧
      (allOn s = true → (s.lport p.toNat).lanes.idleTx = true → ∀ c ∈ [Instr.squelchBurst p, .electricalIdleExit p],
        ∃ t, exec c s = .next t ∧ t = { s with lports := t.lports } ∧
        t.lport p.toNat = { s.lport p.toNat with lanes := (s.lport p.toNat).lanes.exit })) ∧
    ((s.lport p.toNat).lanes.idleTx = false → exec (.electricalIdleExit p) s = .next s) ∧
    ((s.lport p.toNat).lanes.waking = false → exec (.idleExitTimeout p) s = .next s) ∧
    ((s.lport p.toNat).lanes.waking = true → (∀ k, k / 4 = p.toNat → (s.lane k).state ≠ .inService) →
      (s.lport p.toNat).state ≠ .quarantined → ∃ t,
      exec (.idleExitTimeout p) s = .next t ∧ (t.lport p.toNat).state = .down ∧ (t.lport p.toNat).reason = 2) ∧
    ((s.lane l.toNat).blockLock = false →
      (s.lane l.toNat).state = .disabled ∨ (s.lane l.toNat).hdrs.length + bs.length < 64 → ∃ t,
      exec (.blockLock ⟨l, bs⟩) s = .next t ∧ (t.lane l.toNat).blockLock = false ∧
      (t.lane l.toNat).state = (s.lane l.toNat).state ∧ t = { s with lanes := t.lanes } ∧
      ∀ k, k ≠ l.toNat → t.lane k = s.lane k) ∧
    (bs.length = 64 → (s.lane l.toNat).blockLock = false → (s.lane l.toNat).cfg.loop = 0 →
      (∀ b ∈ bs, syncOk (blkHdr (if (s.lane l.toNat).rxInv then ~~~b else b)) = true) →
      ((s.lane l.toNat).state = .detect → ∃ t, exec (.blockLock ⟨l, bs⟩) s = .next t ∧
        t = { s with lanes := t.lanes, lports := t.lports, lcnts := t.lcnts } ∧ (t.lane l.toNat).state = .training ∧
        (t.lane l.toNat).phase = max (s.lane l.toNat).phase 2 ∧ (t.lane l.toNat).cdrLock = true ∧
        (t.lane l.toNat).blockLock = true ∧ (t.lane l.toNat).hdrs = List.replicate 64 true ∧
        (t.lane l.toNat).cfg = (s.lane l.toNat).cfg) ∧
      ((s.lane l.toNat).state = .idle → (∀ k, k / 4 = l.toNat / 4 → (s.lane k).deferred = false) → ∃ t,
        exec (.blockLock ⟨l, bs⟩) s = .next t ∧ t = { s with lanes := t.lanes, lports := t.lports, lcnts := t.lcnts } ∧
        (t.lane l.toNat).state = .inService ∧ (t.lane l.toNat).cdrLock = true ∧ (t.lane l.toNat).blockLock = true ∧
        (t.lane l.toNat).cfg = (s.lane l.toNat).cfg ∧ (t.lport (l.toNat / 4)).lanes.idleRx = false)) ∧
    ((s.lane l.toNat).cfg.injMode ≠ 2 ∨ (s.lane l.toNat).cfg.genEn = false ∨ 4 ≤ l.toNat →
      exec (.prbsPeriodicInject l) s = .next s) ∧
    (l.toNat < 4 → (s.lane l.toNat).cfg.injMode = 2 → (s.lane l.toNat).cfg.genEn = true → ∃ t,
      exec (.prbsPeriodicInject l) s = .next t ∧ t = { s with lcnts := t.lcnts, lanes := t.lanes } ∧
      t.lane l.toNat = { s.lane l.toNat with flips := (s.lane l.toNat).flips + 1 } ∧
      (t.lcnt l.toNat).injected = (s.lcnt l.toNat).injected + 1)) ∧
  ∀ (l : BitVec 4) (bits : List Bool) (reg : List Bool) (n : Nat) (s : State),
    (exec (.prbsSyncLoss ⟨l, bits⟩) s = exec (.prbsSync ⟨l, bits⟩) s) ∧
    ((s.lane l.toNat).cfg.loop = 1 ∨ (s.lane l.toNat).cfg.loop = 2 ∨
      ((s.lane l.toNat).cfg.loop = 0 ∧ (4 ≤ l.toNat ∨ (s.lane l.toNat).cfg.chkEn = false)) →
      exec (.prbsSync ⟨l, bits⟩) s = .next s) ∧
    (l.toNat < 4 → (s.lane l.toNat).cfg.chkEn = true → (s.lane l.toNat).cfg.loop = 0 →
      (prbsTaps (s.lane l.toNat).cfg.poly).1 ≠ 0 → (s.lcnt l.toNat).bits < 2 ^ 48 →
      bits = (prbsRun (s.lane l.toNat).cfg.poly (s.lane l.toNat).cfg.inv n reg).2.map
        (fun b => xor b (s.lane l.toNat).rxInv) →
      (∃ t, exec (.prbsSync ⟨l, bits⟩) s = .next t ∧ t = { s with lcnts := t.lcnts } ∧
        (∀ k, k ≠ l.toNat → t.lcnt k = s.lcnt k)) ∧
      ((s.lcnt l.toNat).sync = false → (s.lcnt l.toNat).chk = [] → (s.lcnt l.toNat).run = 0 →
        3 * (prbsTaps (s.lane l.toNat).cfg.poly).1 ≤ n → ∃ t, exec (.prbsSync ⟨l, bits⟩) s = .next t ∧
        (t.lcnt l.toNat).sync = true ∧ (t.lcnt l.toNat).errors = (s.lcnt l.toNat).errors ∧
        (t.lcnt l.toNat).bits =
          ((s.lcnt l.toNat).bits + (n - 3 * (prbsTaps (s.lane l.toNat).cfg.poly).1)) % 2 ^ 48) ∧
      ((s.lcnt l.toNat).sync = false → (s.lcnt l.toNat).chk = [] → (s.lcnt l.toNat).run = 0 →
        n < 3 * (prbsTaps (s.lane l.toNat).cfg.poly).1 → ∃ t, exec (.prbsSync ⟨l, bits⟩) s = .next t ∧
        (t.lcnt l.toNat).sync = false ∧ (t.lcnt l.toNat).errors = (s.lcnt l.toNat).errors ∧
        (t.lcnt l.toNat).bits = (s.lcnt l.toNat).bits) ∧
      ((s.lcnt l.toNat).sync = true → (s.lcnt l.toNat).chk = reg.take (prbsTaps (s.lane l.toNat).cfg.poly).1 →
        (s.lcnt l.toNat).wrong = [] → ∃ t, exec (.prbsSync ⟨l, bits⟩) s = .next t ∧ (t.lcnt l.toNat).sync = true ∧
        (t.lcnt l.toNat).errors = (s.lcnt l.toNat).errors ∧
        (t.lcnt l.toNat).bits = ((s.lcnt l.toNat).bits + n) % 2 ^ 48) ∧
      ((s.lcnt l.toNat).sync = true → (s.lcnt l.toNat).chk = reg.take (prbsTaps (s.lane l.toNat).cfg.poly).1 →
        (s.lcnt l.toNat).wrong = [] → n = 64 → ∃ t, exec (.prbsSyncLoss ⟨l, bits.map not⟩) s = .next t ∧
        (t.lcnt l.toNat).sync = false ∧ (t.lcnt l.toNat).errors = satAdd 32 (s.lcnt l.toNat).errors 64 ∧
        (t.lcnt l.toNat).bits = ((s.lcnt l.toNat).bits + 64) % 2 ^ 48))

/-! ### Link ports and the cascade -/

/-- Authentication: after a FATAL reaction every message is discarded and counted in LATE (R437); a message out of its
turn does nothing; HELLO, CERT, KEYX and CONFIRM advance it when their checks hold (R342 to R345), a wrong pairing, an
own DEVID or a failed check takes the port DOWN with its reason, class 0x23 (R333, R334, R345, R348). -/
def Obligations.Authentication : Prop :=
  ∀ (p : BitVec 2) (h : HelloMsg) (c : CertMsg) (k : KeyxMsg) (ok : Bool) (s : State), s.boot.mode = .ready →
    (s.fatal.inSeq = true → ∀ i ∈ [Instr.hello p h, .cert p c, .keyx p k, .confirm p ok], ∃ t, exec i s = .next t ∧
      t = { s with fatal := { s.fatal with late := satInc 32 s.fatal.late } }) ∧
    (s.fatal.inSeq = false →
      ((s.lport p.toNat).state ≠ .auth → ∀ i ∈ [Instr.hello p h, .cert p c, .keyx p k, .confirm p ok],
        exec i s = .next s) ∧
      ((s.lport p.toNat).state = .auth →
        ((s.lauthOf p.toNat).step ≠ 0 → exec (.hello p h) s = .next s) ∧
        ((s.lauthOf p.toNat).step ≠ 1 → exec (.cert p c) s = .next s) ∧
        ((s.lauthOf p.toNat).step ≠ 2 → exec (.keyx p k) s = .next s) ∧
        ((s.lauthOf p.toNat).step ≠ 3 → exec (.confirm p ok) s = .next s) ∧
        ((s.lauthOf p.toNat).step = 0 →
          (h.devid.toNat = s.dev → ∃ t, exec (.hello p h) s = .next t ∧ (t.lport p.toNat).state = .down ∧
            (t.lport p.toNat).reason = 4 ∧ countsClass s t 0x23) ∧
          (h.devid.toNat ≠ s.dev → h.devid.toNat ≠ casNbrDev s.img.active p.toNat ∨
              h.port.toNat ≠ casNbrPort s.img.active p.toNat → ∃ t, exec (.hello p h) s = .next t ∧
            (t.lport p.toNat).state = .down ∧ (t.lport p.toNat).reason = 3 ∧ countsClass s t 0x23) ∧
          (h.devid.toNat ≠ s.dev → h.devid.toNat = casNbrDev s.img.active p.toNat →
            h.port.toNat = casNbrPort s.img.active p.toNat → ∃ t, exec (.hello p h) s = .next t ∧
            (t.lport p.toNat).state = .auth ∧ (t.lauthOf p.toNat).step = 1 ∧ (t.lauthOf p.toNat).hello = some h ∧
            (t.lport p.toNat).pdev = h.devid.toNat ∧ (t.lport p.toNat).pport = h.port.toNat)) ∧
        ((s.lauthOf p.toNat).step = 1 →
          (c.formOk = true → c.fingerprint = casFingerprint s.img.active → c.caOk = true → c.issuerOk = true →
            c.sigOk = true → c.usageOk = true → ∃ t, exec (.cert p c) s = .next t ∧
            t = { s with lauth := t.lauth, lports := t.lports } ∧
            t.lauthOf p.toNat = { s.lauthOf p.toNat with
              step := 2, certOk := true, serial := c.serial
              transcript := (s.lauthOf p.toNat).transcript ++
                if s.dev < (s.lport p.toNat).pdev then Config.certificates ++ c.der else c.der ++ Config.certificates } ∧
            t.lport p.toNat = { s.lport p.toNat with lanes := (t.lport p.toNat).lanes } ∧
            ∀ q, q ≠ p.toNat → t.lport q = s.lport q) ∧
          (c.formOk = false ∨ c.fingerprint ≠ casFingerprint s.img.active ∨ c.caOk = false ∨ c.issuerOk = false ∨
            c.sigOk = false ∨ c.usageOk = false → ∃ t, exec (.cert p c) s = .next t ∧
            (t.lport p.toNat).state = .down ∧ (t.lport p.toNat).reason = 5 ∧ countsClass s t 0x23)) ∧
        ((s.lauthOf p.toNat).step = 2 → (s.lauthOf p.toNat).hello = some h →
          (k.sigOk = true → s.usable 0 = true → s.usable 5 = true → ∃ t, exec (.keyx p k) s = .next t ∧
            (t.lport p.toNat).state = .auth ∧ (t.lauthOf p.toNat).step = 3 ∧
            (t.lauthOf p.toNat).keys = some (s.deriveKeys p.toNat h k.pub)) ∧
          (k.sigOk = false ∨ s.usable 0 = false ∨ s.usable 5 = false → ∃ t, exec (.keyx p k) s = .next t ∧
            (t.lport p.toNat).state = .down ∧ (t.lport p.toNat).reason = 5 ∧ countsClass s t 0x23)) ∧
        ((s.lauthOf p.toNat).step = 3 →
          (∃ t, exec (.confirm p true) s = .next t ∧ (t.lport p.toNat).state = .up ∧ (t.lport p.toNat).retry = 1 ∧
            (t.lauthOf p.toNat).step = 4 ∧
            (s.cas.role = 2 → s.tb.state = .free → s.tb.onAoclk = false →
              t.tb.state = .source ∧ t.boot.timeUnaligned = false) ∧
            (s.cas.role ≠ 2 ∨ s.tb.state ≠ .free → countsClass s t 0x23)) ∧
          (∃ t, exec (.confirm p false) s = .next t ∧ (t.lport p.toNat).state = .down ∧
            (t.lport p.toNat).reason = 5 ∧ countsClass s t 0x23))))

/-- Batches, replay and acknowledgements: a batch closes with its TAG and the next batch counter (R346); a batch that
verifies accepts its frame in SEQ order, one with a CRC error is discarded, counted and asked for again, the third in a
row takes the port DOWN (R340, R347); a stalled replay buffer is sent again, after 64 times the port is DOWN (R340); an
ACK frame releases the kept frames it passes (R341). -/
def Obligations.Batches : Prop :=
  ∀ (p : BitVec 2) (y : RxFrame) (f : Frame) (k : SessKeys) (fs : List RxFrame) (mac : BitVec 96) (first : BitVec 12)
    (count : BitVec 8) (org : BitVec 3) (a : BitVec 16) (s : State), s.boot.mode = .ready → p.toNat < 4 →
    ((s.lport p.toNat).batch = [] → exec (.batchClose p) s = .next s) ∧
    ((s.lport p.toNat).batch ≠ [] → ∃ t, exec (.batchClose p) s = .next t ∧ t = { s with lports := t.lports } ∧
      (t.lport p.toNat).batch = [] ∧ (t.lport p.toNat).txBatch = (s.lport p.toNat).txBatch + 1 ∧
      (t.lport p.toNat).lastTag.isSome = true ∧ (t.lport p.toNat).replayBuf = (s.lport p.toNat).replayBuf) ∧
    (s.fatal.inSeq = true → exec (.batchTag p fs mac first count) s = .next s) ∧
    ((s.lport p.toNat).state ≠ .up → (s.lport p.toNat).state ≠ .quarantined →
      exec (.batchTag p fs mac first count) s = .next s) ∧
    (s.fatal.inSeq = false → (s.lport p.toNat).state = .up → (s.lauthOf p.toNat).accepted = [] →
      ((s.lport p.toNat).replayBuf = [] → (s.lport p.toNat).relayq = [] → (s.lauthOf p.toNat).keys = some k →
        y.crcOk = true → f = y.frame → f.nak = false → f.seq = (s.lport p.toNat).expect → f.dst.toNat = s.dev → ∃ t,
        exec (.batchTag p [y] (Config.gmac k.gmacRx k.ivRx (s.lport p.toNat).rxBatch [y.data]) f.seq 1) s = .next t ∧
        (t.lport p.toNat).expect = (s.lport p.toNat).expect + 1 ∧
        (t.lport p.toNat).rxBatch = (s.lport p.toNat).rxBatch + 1 ∧ (t.lport p.toNat).failRun = 0 ∧
        (t.lauthOf p.toNat).macFail = (s.lauthOf p.toNat).macFail) ∧
      ((∃ x ∈ fs, x.crcOk = false) →
        ((s.lport p.toNat).failRun < 2 → ∃ t, exec (.batchTag p fs mac first count) s = .next t ∧
          (t.lport p.toNat).expect = (s.lport p.toNat).expect ∧ (t.lport p.toNat).nak = true ∧
          (t.lport p.toNat).failRun = (s.lport p.toNat).failRun + 1 ∧
          (t.lauthOf p.toNat).macFail = satInc 16 (s.lauthOf p.toNat).macFail ∧
          (t.lauthOf p.toNat).crcErr = satAdd 16 (s.lauthOf p.toNat).crcErr (fs.filter fun x => !x.crcOk).length ∧
          countsClass s t 0x10) ∧
        (2 ≤ (s.lport p.toNat).failRun → ∃ t, exec (.batchTag p fs mac first count) s = .next t ∧
          (t.lport p.toNat).state = .down ∧ (t.lport p.toNat).reason = 6 ∧ countsClass s t 0x10))) ∧
    ((s.lport p.toNat).replayBuf = [] ∨ (s.lport p.toNat).state ≠ .up → exec (.replayTimeout p) s = .next s) ∧
    ((s.lport p.toNat).replayBuf ≠ [] → (s.lport p.toNat).state = .up →
      ((s.lport p.toNat).stalls < 64 → ∃ t, exec (.replayTimeout p) s = .next t ∧
        (t.lport p.toNat).stalls = (s.lport p.toNat).stalls + 1 ∧
        (t.lport p.toNat).replayBuf = (s.lport p.toNat).replayBuf ∧
        (t.lauthOf p.toNat).replays = satInc 16 (s.lauthOf p.toNat).replays) ∧
      (64 ≤ (s.lport p.toNat).stalls → ∃ t, exec (.replayTimeout p) s = .next t ∧
        (t.lport p.toNat).state = .down ∧ (t.lport p.toNat).reason = 7 ∧ countsClass s t 0x10)) ∧
    (s.fatal.inSeq = true → ∃ t, exec (.ack org a) s = .next t ∧
      t = { s with fatal := { s.fatal with late := satInc 32 s.fatal.late } }) ∧
    (s.fatal.inSeq = false → s.upPorts = [] → exec (.ack org a) s = .next s) ∧
    (s.fatal.inSeq = false → s.upPorts ≠ [] → (s.e2eOf org.toNat).kept.length ≤ 1024 → ∃ t,
      exec (.ack org a) s = .next t ∧ t = { s with cas := { s.cas with e2e := t.cas.e2e } } ∧
      t.e2eOf org.toNat = { s.e2eOf org.toNat with kept := (s.e2eOf org.toNat).kept.dropWhile fun f =>
        1 ≤ (a.toNat + 65536 - f.e2e.toNat) % 65536 && (a.toNat + 65536 - f.e2e.toNat) % 65536 ≤ 32768 } ∧
      ∀ d, d ≠ org.toNat → t.e2eOf d = s.e2eOf d)

/-- Alarms and summaries: an ALARM without a valid token is suspect: counted, source 14 latched with its capture stamp;
one with the next token of its direction advances it and latches source 15, unless it is known; both are recorded
(R363, R364, R428); a QUARANTINED port repeats an ALARM with a fresh token (R366). A SUMMARY is recorded for its
contexts (R360), one that is due goes out on the ports (R359). -/
def Obligations.AlarmsAndSummaries : Prop :=
  ∀ (p : BitVec 2) (stamp : BitVec 64) (org : BitVec 3) (line : BitVec 5) (tok : BitVec 96) (k : SessKeys)
    (e : BitVec 20) (es : List (BitVec 20)) (f : Frame) (n : Nat) (rest : List (Frame × Nat)) (s : State),
    ((s.lport p.toNat).state ≠ .up → (s.lport p.toNat).state ≠ .quarantined →
      exec (.alarm p stamp org line tok) s = .next s) ∧
    ((s.lport p.toNat).state = .up ∨ (s.lport p.toNat).state = .quarantined →
      (s.fatal.inSeq = true → ∃ t, exec (.alarm p stamp org line tok) s = .next t ∧
        t = { s with fatal := { s.fatal with late := satInc 32 s.fatal.late } }) ∧
      (s.fatal.inSeq = false →
        ((s.lauthOf p.toNat).keys = none → ∃ t, exec (.alarm p stamp org line tok) s = .next t ∧
          (t.lauthOf p.toNat).suspect = satInc 16 (s.lauthOf p.toNat).suspect ∧ countsClass s t 0x28 ∧
          (t.latch 14).valid = true ∧ ((s.latch 14).valid = false → (t.latch 14).stamp = stamp) ∧
          t.cas.alarms = s.cas.alarms) ∧
        ((s.lauthOf p.toNat).keys = some k → s.knownAlarm org line stamp = false → ∃ t,
          exec (.alarm p stamp org line (Config.alarmToken k.alarmRx (s.lauthOf p.toNat).alarmRx)) s = .next t ∧
          (t.lauthOf p.toNat).alarmRx = (s.lauthOf p.toNat).alarmRx + 1 ∧ countsClass s t 0x28 ∧
          (t.latch 15).valid = true ∧ ((s.latch 15).valid = false → (t.latch 15).stamp = stamp) ∧
          (t.lauthOf p.toNat).suspect = (s.lauthOf p.toNat).suspect))) ∧
    (s.cas.role = 0 ∨ s.fatal.inSeq = true ∨ (s.lauthOf p.toNat).qRepeat = [] →
      exec (.quarantineAlarmRepeat p) s = .next s) ∧
    (s.cas.role ≠ 0 → s.fatal.inSeq = false → s.domSt (dLNK p.toNat) = 0 → s.pwr.phase = 0 →
      f.body = .alarm stamp org line tok → (s.lauthOf p.toNat).keys = some k →
      (s.lauthOf p.toNat).qRepeat = (f, n) :: rest → n ≤ 1 → ∃ t,
      exec (.quarantineAlarmRepeat p) s = .next t ∧ t = { s with lports := t.lports, lauth := t.lauth } ∧
      (t.lauthOf p.toNat).qRepeat = rest ∧ (t.lauthOf p.toNat).alarmTx = (s.lauthOf p.toNat).alarmTx + 1 ∧
      (t.lport p.toNat).txBatch = (s.lport p.toNat).txBatch + 1) ∧
    (s.cas.role = 0 ∨ s.fatal.inSeq = true → exec .summarySend s = .next s) ∧
    (s.cas.role ≠ 0 → s.fatal.inSeq = false → canSend s p.toNat = true → ∃ t, exec .summarySend s = .next t ∧
      (t.lport p.toNat).seq = (s.lport p.toNat).seq + 1 ∧ t.cas.avail = s.cas.avail) ∧
    (s.fatal.inSeq = false → (s.lport p.toNat).state = .up →
      (org.toNat = s.dev → exec (.summary p org es) s = .next s) ∧
      (org.toNat ≠ s.dev → ∃ t, exec (.summary p org [e]) s = .next t ∧
        SMap.get {} t.cas.avail (mkRoute org.toNat (fld e 0 10)).toNat = ⟨fld e 10 9, bit e 19, s.now⟩ ∧
        t.cas.members = s.cas.members ∧ t.arr = s.arr))

/-- Topology: DISCOVER and HEARTBEAT of a headwater that must be followed are learned, a headwater that hears one steps
back, FREE until it is aligned (R350, R352); the headwater notes a REPORT's serial and alignment, and another serial
under a known DEVID changes neither (R334, R350); a MAP is taken (R341); EXCLUDE takes every port DOWN for good (R334),
QUARANTINE its own port (R366); the standby that takes over raises EPOCH and is the SOURCE (R265, R351). Frames on a
port that is not UP do nothing. -/
def Obligations.Topology : Prop :=
  ∀ (p : BitVec 2) (m : TopoMsg) (org : BitVec 3) (ser : BitVec 96) (pr : BitVec 32) (al : Bool) (s : State),
    s.boot.mode = .ready →
    (s.fatal.inSeq = true → ∀ c ∈ [Instr.topoDiscover p m, .topoReady p m, .topoHeartbeat p m, .topoMap p m,
        .topoQuarantine p, .topoExclude m, .topoReport org ser pr al], ∃ t, exec c s = .next t ∧
      t = { s with fatal := { s.fatal with late := satInc 32 s.fatal.late } }) ∧
    (s.fatal.inSeq = false → (s.lport p.toNat).state ≠ .up → ∀ c ∈ [Instr.topoDiscover p m, .topoReady p m,
        .topoHeartbeat p m, .topoMap p m, .topoQuarantine p], exec c s = .next s) ∧
    (s.fatal.inSeq = false → (s.lport p.toNat).state = .up →
      (m.hw.toNat ≠ s.dev → s.mustFollow m = true →
        (∃ t, exec (.topoDiscover p m) s = .next t ∧ t.cas.epoch = m.epoch.toNat ∧ t.cas.hwdev = m.hw.toNat) ∧
        (∃ t, exec (.topoHeartbeat p m) s = .next t ∧ t.cas.epoch = m.epoch.toNat ∧ t.cas.hwdev = m.hw.toNat ∧
          t.cas.members = m.members ∧ t.cas.role = (if s.cas.role = 2 then 1 else s.cas.role) ∧
          (s.cas.role = 2 → t.tb.state = .free ∧ t.boot.timeUnaligned = true))) ∧
      (m.hw.toNat = s.dev ∨ s.mustFollow m = false → exec (.topoHeartbeat p m) s = .next s) ∧
      (m.hw.toNat = s.dev → exec (.topoReady p m) s = .next s) ∧
      (m.hw.toNat ≠ s.dev → ∃ t, exec (.topoReady p m) s = .next t ∧
        t = { s with lports := t.lports, lauth := t.lauth, pwr := t.pwr } ∧
        t.lport p.toNat = s.lport p.toNat ∧ ∀ q, q < 4 → q ≠ p.toNat → canSend s q = true →
          (t.lport q).seq = (s.lport q).seq + 1) ∧
      (∃ t, exec (.topoMap p m) s = .next t ∧ t.cas.map = m.data ∧ t.cas.mapKnown = true ∧
        t.cas.members = s.cas.members) ∧
      (∃ t, exec (.topoQuarantine p) s = .next t ∧ (t.lport p.toNat).state = .quarantined ∧
        (t.lport p.toNat).replayBuf = [] ∧ countsClass s t 0x23 ∧
        ∀ q, q ≠ p.toNat → (t.lport q).state = (s.lport q).state) ∧
      (∃ t, exec (.topoExclude m) s = .next t ∧ t.cas.excluded = true ∧ (t.lport p.toNat).state = .down ∧
        (t.lport p.toNat).reason = 4) ∧
      (s.cas.role ≠ 2 → exec (.topoReport org ser pr al) s = .next s) ∧
      (s.cas.role = 2 →
        ((org.toNat = s.dev → Config.deviceSerial = 0 ∨ Config.deviceSerial = ser) →
          (org.toNat ≠ s.dev → SMap.get 0 s.cas.serials org.toNat = 0 ∨ SMap.get 0 s.cas.serials org.toNat = ser) → ∃ t,
          exec (.topoReport org ser pr al) s = .next t ∧ SMap.get 0 t.cas.serials org.toNat = ser ∧
          bit t.cas.aligned org.toNat = al ∧ t.cas.mapKnown = true) ∧
        ((org.toNat = s.dev ∧ Config.deviceSerial ≠ 0 ∧ Config.deviceSerial ≠ ser) ∨
            (org.toNat ≠ s.dev ∧ SMap.get 0 s.cas.serials org.toNat ≠ 0 ∧ SMap.get 0 s.cas.serials org.toNat ≠ ser) → ∃ t,
          exec (.topoReport org ser pr al) s = .next t ∧ t.cas = s.cas))) ∧
    (s.cas.role ≠ 2 ∨ s.fatal.inSeq = true → exec .heartbeatSend s = .next s) ∧
    (s.cas.role = 2 → s.fatal.inSeq = false → canSend s p.toNat = true → ∃ t, exec .heartbeatSend s = .next t ∧
      (t.lport p.toNat).seq = (s.lport p.toNat).seq + 1 ∧ t.cas = s.cas) ∧
    (s.cas.role ≠ 3 ∨ casStandby s.img.active = 0xFF ∨ s.fatal.inSeq = true → exec .headwaterTakeover s = .next s) ∧
    (s.cas.role = 3 → casStandby s.img.active ≠ 0xFF → s.fatal.inSeq = false → ∃ t,
      exec .headwaterTakeover s = .next t ∧ t.cas.role = 2 ∧ t.cas.epoch = (s.cas.epoch + 1) % 256 ∧
      t.cas.hwdev = s.dev ∧ t.tb.state = .source ∧ t.tb.hops = 0 ∧ t.boot.timeUnaligned = false)

/-- Proxies at the target: an OPEN or a HANDOFF takes a free source of the store, live for its global source, or is
refused where none is free (R353, R354, R361); CFG is a commit to the proxy (R355); CLOSE ends an idle one,
CLOSE_DISCARD any (R358); an EVENT takes a window entry with its stamp while the proxy's slice is ACTIVE (R356); a
handed-off proxy that is not selected in time goes back (R361). Each frame in order advances the E2E number (R341). -/
def Obligations.ProxiesAtTarget : Prop :=
  ∀ (h : RxHdr) (g : BitVec 24) (en : BitVec 64) (st : BitVec 32) (fl : BitVec 8) (px : BitVec 14) (stamp : BitVec 64)
    (n : Nat) (s : State),
    (e2eNext s h = true → unspoiled s = true → routeDev (Entry.ofWord en).route = s.dev → (Entry.ofWord en).trig = false →
      (Entry.ofWord en).world = ctxWorld (routeCtx (Entry.ofWord en).route) →
      (s.ctx (routeCtx (Entry.ofWord en).route)).inUse = true →
      (s.freeProxies = [] → ∀ c ∈ [Instr.proxyOpen h g en st fl, .proxyHandoff h g en st fl], ∃ t,
        exec c s = .next t ∧ t.cas.proxies = s.cas.proxies ∧ t.arr = s.arr) ∧
      (s.freeProxies ≠ [] →
        (∃ t k, exec (.proxyOpen h g en st fl) s = .next t ∧ k ∈ s.freeProxies ∧
          t.proxy k = ⟨true, g.toNat, bit fl 3, false, false, false⟩ ∧
          (t.entry k).state = (if bit fl 2 then .pending else .idle) ∧
          (t.entry k).route = (Entry.ofWord en).route ∧ (t.entry k).prio = (Entry.ofWord en).prio ∧
          (bit fl 2 = true → (t.plaOf k).stamp = st) ∧ ∀ j, j ≠ k → t.entry j = s.entry j) ∧
        (s.memberOk (routeCtx (Entry.ofWord en).route) = true → ∃ t k, exec (.proxyHandoff h g en st fl) s = .next t ∧
          k ∈ s.freeProxies ∧ (t.proxy k).live = true ∧ (t.proxy k).handoff = true ∧
          (t.entry k).state = .pending ∧ (t.plaOf k).stamp = st))) ∧
    (e2eNext s h = true → s.findProxy g.toNat = none → ∀ c ∈ [Instr.proxyCfg h g en px, .proxyClose h g px,
        .proxyCloseDiscard h g px], ∃ t, exec c s = .next t ∧ t.arr = s.arr ∧ t.cas.proxies = s.cas.proxies ∧
      (t.e2eOf h.org.toNat).exp = (h.e2e.toNat + 1) % 65536) ∧
    (e2eNext s h = true → unspoiled s = true → s.findProxy g.toNat = some n → isMsg n = true →
      ((s.entry n).state = .idle → (s.entry n).trig = false → (Entry.ofWord en).trig = false →
        routeDev (Entry.ofWord en).route = s.dev → ∃ t, exec (.proxyCfg h g en px) s = .next t ∧
        t.entry n = {
          Entry.ofWord en with
            rmode := false
            state := .idle
            slice := BitVec.ofNat 12 (s.ctx (routeCtx (Entry.ofWord en).route)).slice } ∧
        (∀ j, j ≠ n → t.entry j = s.entry j) ∧ t.cas.proxies = s.cas.proxies) ∧
      ((s.entry n).state = .idle → ∃ t, exec (.proxyClose h g px) s = .next t ∧ (t.proxy n).live = false ∧
        (∀ j, j ≠ n → t.entry j = s.entry j) ∧ ∀ j, j ≠ n → t.proxy j = s.proxy j) ∧
      (∃ t, exec (.proxyCloseDiscard h g px) s = .next t ∧ (t.proxy n).live = false ∧
        t.cfl.window = s.cfl.window ∧ ∀ j, j ≠ n → t.proxy j = s.proxy j) ∧
      (s.sliceActive (s.entry n).slice.toNat = true → s.ordUsed < 7936 → mapReads s n → ∃ t x,
        exec (.event h stamp g 0 px) s = .next t ∧ t.cfl.window = s.cfl.window ++ [x] ∧ x.src = n ∧
        x.stamp = stamp ∧ x.origin = 5 ∧ x.kind = .fire ∧ t.arr = s.arr ∧
        (t.e2eOf h.org.toNat).exp = (h.e2e.toNat + 1) % 65536) ∧
      (s.sliceActive (s.entry n).slice.toNat = false → ∃ t, exec (.event h stamp g 0 px) s = .next t ∧
        t.cfl.window = s.cfl.window ∧ t.arr = s.arr)) ∧
    (s.cas.role = 0 ∨ s.fatal.inSeq = true ∨ s.proxySrc px.toNat = none →
      exec (.handoffSelectTimeout px) s = .next s) ∧
    (s.cas.role ≠ 0 → s.fatal.inSeq = false → s.proxySrc px.toNat = some n → (s.proxy n).live = true →
      (s.proxy n).handoff = true → unspoiled s = true →
      ((s.entry n).state = .pending ∨ (s.entry n).state = .idle → ∃ t, exec (.handoffSelectTimeout px) s = .next t ∧
        (t.proxy n).live = false ∧ ∀ j, j ≠ n → t.entry j = s.entry j) ∧
      ((s.entry n).state ≠ .pending → (s.entry n).state ≠ .idle → (s.entry n).state ≠ .reserved → exec (.handoffSelectTimeout px) s = .next s))

/-- PRETs at the home of a FORWARDED source: OPENED names its proxy (R354); RETURNED without a firing ends it IDLE,
with one PENDING under its stamp (R358); HANDBACK brings it back PENDING (R361); a refused OPEN disables it, held or
IDLE, and is reported (R354). A PRET for another source only takes its turn. After a FATAL reaction a frame counts in
LATE (R437), a frame out of its window or a second time does nothing (R341). -/
def Obligations.ForwardedAtHome : Prop :=
  ∀ (h : RxHdr) (g : BitVec 24) (px : BitVec 14) (st : BitVec 32) (fl cause : BitVec 8) (n : Nat) (f : Fwd) (s : State),
    (s.fatal.inSeq = true → ∀ c ∈ [Instr.opened h g px, .returned h g px st fl, .handback h g px st fl,
        .refused h g cause px], ∃ t, exec c s = .next t ∧
      t = { s with fatal := { s.fatal with late := satInc 32 s.fatal.late } }) ∧
    (s.fatal.inSeq = false → s.upPorts = [] ∨
        64 < (h.e2e.toNat + 65536 - (s.e2eOf h.org.toNat).exp) % 65536 ∨
        (∃ x ∈ (s.e2eOf h.org.toNat).held, x.e2e = h.e2e) → ∀ c ∈ [Instr.opened h g px, .returned h g px st fl,
        .handback h g px st fl, .refused h g cause px], exec c s = .next s) ∧
    (e2eNext s h = true → unspoiled s = true → n = g.toNat % 2 ^ 21 →
      g.toNat / 2 ^ 21 ≠ s.dev ∨ s.fwd n = none ∨ ((s.entry n).state ≠ .forwarded ∧ (s.entry n).state ≠ .reserved) →
      ∀ c ∈ [Instr.opened h g px, .returned h g px st fl, .handback h g px st fl, .refused h g cause px], ∃ t,
      exec c s = .next t ∧ t.arr = s.arr ∧ t.cas.fwds = s.cas.fwds ∧
      (t.e2eOf h.org.toNat).exp = (h.e2e.toNat + 1) % 65536) ∧
    (e2eNext s h = true → unspoiled s = true → n = g.toNat % 2 ^ 21 → g.toNat / 2 ^ 21 = s.dev → s.fwd n = some f →
      (s.entry n).state = .forwarded →
      (∃ t, exec (.opened h g px) s = .next t ∧ t.fwd n = some { f with proxy := some px.toNat } ∧ t.arr = s.arr ∧
        ∀ j, j ≠ n → t.fwd j = s.fwd j) ∧
      (f.held = none → s.remoteRoute (s.entry n).rmode (s.entry n).route = false → (s.entry n).sov = false →
        (fld fl 4 3 ≠ 1 → bit fl 2 = false → ∃ t, exec (.returned h g px st fl) s = .next t ∧ t.fwd n = none ∧
          t.entry n = { s.entry n with state := .idle } ∧ ∀ j, j ≠ n → t.entry j = s.entry j) ∧
        ((s.entry n).trig = true → fld fl 4 3 = 0 → bit fl 2 = false → ∃ t, exec (.handback h g px st fl) s = .next t ∧
          t.fwd n = none ∧ t.entry n = { s.entry n with state := .idle } ∧ ∀ j, j ≠ n → t.entry j = s.entry j) ∧
        (∀ c, c = Instr.returned h g px st (fl ||| 4) ∨ (c = .handback h g px st fl ∧ (s.entry n).trig = false) → ∃ t, exec c s = .next t ∧
          t.fwd n = none ∧ t.entry n = { s.entry n with state := .pending } ∧ (t.plaOf n).stamp = st ∧
          (t.plaOf n).linked = (s.entry n).en ∧ ∀ j, j ≠ n → t.entry j = s.entry j)) ∧
      (f.proxy ≠ none ∨ cause = 5 → ∃ t, exec (.refused h g cause px) s = .next t ∧ countsClass s t 0x23 ∧
        t.fwd n = some f ∧ t.arr = s.arr ∧ ∀ i, s.sourceSlice n = some i →
          (t.slc i).cnt.closed = satInc 32 (s.slc i).cnt.closed) ∧
      (cause ≠ 5 → f.grp = none → f.proxy = none → f.firing = none → f.held = none → ∃ t,
        exec (.refused h g cause px) s = .next t ∧ t.fwd n = none ∧
        t.entry n = { s.entry n with en := false, state := .idle } ∧ countsClass s t 0x23 ∧
        ∀ j, j ≠ n → t.entry j = s.entry j) ∧
      (cause ≠ 5 → f.grp = none → f.proxy = none → f.firing = some st → (s.entry n).trig = false → ∃ t,
        exec (.refused h g cause px) s = .next t ∧ t.fwd n = none ∧
        t.entry n = { s.entry n with en := false, state := .pending } ∧ (t.plaOf n).stamp = st ∧
        countsClass s t 0x23))
end

