-- ==== Sys2Proof/Laws/SMap.lean ====
section
/-!
SUPPORT. Laws of the sparse maps: a read after a write, at the written index and at every other one, for every list, and
the canonical form that every operation keeps.
-/

namespace Sys2Proof.Machine

variable {α β : Type}

/-! ### Reads after writes -/

@[simp] theorem SMap.get_nil (d : α) (i : Nat) : SMap.get d [] i = d := rfl

theorem SMap.get_put (d : α) (m : SMap α) (k : Nat) (v : α) (i : Nat) :
    SMap.get d (SMap.put k v m) i = if i = k then v else SMap.get d m i := by
  induction m with
  | nil => simp [SMap.put, SMap.get]
  | cons p m ih =>
    obtain ⟨j, w⟩ := p
    simp only [SMap.put]
    split
    · simp [SMap.get]
    · split
      · subst_vars
        by_cases h : i = j <;> simp [SMap.get, h]
      · simp only [SMap.get, ih]
        by_cases h : i = j
        · subst h
          simp [Ne.symm ‹¬k = i›]
        · simp [h]

theorem SMap.get_erase (d : α) (m : SMap α) (k i : Nat) :
    SMap.get d (SMap.erase k m) i = if i = k then d else SMap.get d m i := by
  induction m with
  | nil => simp [SMap.erase, SMap.get]
  | cons p m ih =>
    obtain ⟨j, w⟩ := p
    simp only [SMap.erase]
    split
    · subst_vars
      simp only [ih, SMap.get]
      split <;> simp_all
    · simp only [SMap.get, ih]
      by_cases h : i = j
      · subst h
        simp [‹¬i = k›]
      · simp [h]

/-- A read after a write. -/
@[simp] theorem SMap.get_set [DecidableEq α] (d : α) (m : SMap α) (k : Nat) (v : α) (i : Nat) :
    SMap.get d (SMap.set d m k v) i = if i = k then v else SMap.get d m i := by
  simp only [SMap.set]
  split
  · rename_i hv
    rw [hv]
    exact SMap.get_erase d m k i
  · exact SMap.get_put d m k v i

/-- A read after a change. -/
@[simp] theorem SMap.get_upd [DecidableEq α] (d : α) (m : SMap α) (k : Nat) (f : α → α) (i : Nat) :
    SMap.get d (SMap.upd d m k f) i = if i = k then f (SMap.get d m k) else SMap.get d m i := by
  simp [SMap.upd]

theorem SMap.get_upd_self [DecidableEq α] (d : α) (m : SMap α) (k : Nat) (f : α → α) :
    SMap.get d (SMap.upd d m k f) k = f (SMap.get d m k) := by simp

theorem SMap.get_upd_ne [DecidableEq α] (d : α) (m : SMap α) {k i : Nat} (f : α → α) (h : i ≠ k) :
    SMap.get d (SMap.upd d m k f) i = SMap.get d m i := by simp [h]

/-- A read after every value has been changed, by a change that keeps the default. -/
theorem SMap.get_mapVals [DecidableEq β] (d : α) (e : β) (f : Nat → α → β) (h : ∀ k, f k d = e) (m : SMap α)
    (i : Nat) : SMap.get e (SMap.mapVals e f m) i = f i (SMap.get d m i) := by
  induction m with
  | nil => simp [SMap.mapVals, SMap.get, h]
  | cons p m ih =>
    obtain ⟨j, w⟩ := p
    simp only [SMap.mapVals]
    split
    · rename_i hd
      rw [SMap.get_erase, ih]
      by_cases hi : i = j
      · subst hi
        simp [SMap.get, hd]
      · simp [SMap.get, hi]
    · by_cases hi : i = j
      · subst hi
        simp [SMap.get]
      · simp [SMap.get, hi, ih]

/-! ### The canonical form -/

theorem SMap.risesFrom_mono (m : SMap α) {j k : Nat} (h : j ≤ k) (hm : SMap.risesFrom (some k) m = true) :
    SMap.risesFrom (some j) m = true := by
  cases m with
  | nil => rfl
  | cons p m =>
    simp only [SMap.risesFrom, Bool.and_eq_true, decide_eq_true_eq] at hm ⊢
    exact ⟨by omega, hm.2⟩

theorem SMap.risesFrom_put (m : SMap α) (k : Nat) (v : α) (j : Nat) (hj : j < k)
    (hm : SMap.risesFrom (some j) m = true) : SMap.risesFrom (some j) (SMap.put k v m) = true := by
  induction m generalizing j with
  | nil => simp [SMap.put, SMap.risesFrom, hj]
  | cons p m ih =>
    obtain ⟨i, w⟩ := p
    simp only [SMap.risesFrom, Bool.and_eq_true, decide_eq_true_eq] at hm
    simp only [SMap.put]
    split
    · simp_all [SMap.risesFrom]
    · split
      · simp_all [SMap.risesFrom]
      · simp only [SMap.risesFrom, Bool.and_eq_true, decide_eq_true_eq]
        exact ⟨hm.1, ih i (by omega) hm.2⟩

theorem SMap.risesFrom_none_put (m : SMap α) (k : Nat) (v : α) (hm : SMap.risesFrom none m = true) :
    SMap.risesFrom none (SMap.put k v m) = true := by
  cases m with
  | nil => rfl
  | cons p m =>
    obtain ⟨i, w⟩ := p
    simp only [SMap.risesFrom] at hm
    simp only [SMap.put]
    split
    · simp_all [SMap.risesFrom]
    · split
      · simp_all [SMap.risesFrom]
      · exact SMap.risesFrom_put m k v i (by omega) hm

theorem SMap.risesFrom_erase (m : SMap α) (k j : Nat) (hm : SMap.risesFrom (some j) m = true) :
    SMap.risesFrom (some j) (SMap.erase k m) = true := by
  induction m generalizing j with
  | nil => rfl
  | cons p m ih =>
    obtain ⟨i, w⟩ := p
    simp only [SMap.risesFrom, Bool.and_eq_true, decide_eq_true_eq] at hm
    simp only [SMap.erase]
    split
    · exact SMap.risesFrom_mono _ (Nat.le_of_lt hm.1) (ih i hm.2)
    · simp only [SMap.risesFrom, Bool.and_eq_true, decide_eq_true_eq]
      exact ⟨hm.1, ih i hm.2⟩

theorem SMap.rises_of_some {m : SMap α} {j : Nat} (h : SMap.risesFrom (some j) m = true) :
    SMap.risesFrom none m = true := by
  cases m with
  | nil => rfl
  | cons p m =>
    simp only [SMap.risesFrom, Bool.and_eq_true] at h
    exact h.2

theorem SMap.risesFrom_none_erase (m : SMap α) (k : Nat) (hm : SMap.risesFrom none m = true) :
    SMap.risesFrom none (SMap.erase k m) = true := by
  cases m with
  | nil => rfl
  | cons p m =>
    obtain ⟨i, w⟩ := p
    simp only [SMap.risesFrom] at hm
    simp only [SMap.erase]
    split
    · exact SMap.rises_of_some (SMap.risesFrom_erase m k i hm)
    · exact SMap.risesFrom_erase m k i hm

theorem SMap.mem_put {m : SMap α} {k : Nat} {v : α} {p : Nat × α} (h : p ∈ SMap.put k v m) : p = (k, v) ∨ p ∈ m := by
  induction m with
  | nil => simpa [SMap.put] using h
  | cons q m ih =>
    obtain ⟨j, w⟩ := q
    simp only [SMap.put] at h
    split at h
    · simpa using h
    · split at h <;> simp only [List.mem_cons] at h ⊢
      · rcases h with h | h <;> simp [h]
      · rcases h with h | h
        · simp [h]
        · rcases ih h with h | h <;> simp [h]

theorem SMap.mem_erase {m : SMap α} {k : Nat} {p : Nat × α} (h : p ∈ SMap.erase k m) : p ∈ m := by
  induction m with
  | nil => exact h
  | cons q m ih =>
    obtain ⟨j, w⟩ := q
    simp only [SMap.erase] at h
    split at h
    · exact List.mem_cons_of_mem _ (ih h)
    · simp only [List.mem_cons] at h ⊢
      exact h.imp_right ih

theorem SMap.wf_iff [DecidableEq α] (d : α) (m : SMap α) :
    SMap.wf d m = true ↔ SMap.risesFrom none m = true ∧ ∀ p ∈ m, p.2 ≠ d := by
  simp [SMap.wf]

theorem SMap.wf_nil [DecidableEq α] (d : α) : SMap.wf d [] = true := rfl

/-- A write keeps the canonical form. -/
theorem SMap.wf_set [DecidableEq α] (d : α) (m : SMap α) (k : Nat) (v : α) (h : SMap.wf d m = true) :
    SMap.wf d (SMap.set d m k v) = true := by
  rw [SMap.wf_iff] at h ⊢
  simp only [SMap.set]
  split
  · exact ⟨SMap.risesFrom_none_erase m k h.1, fun p hp => h.2 p (SMap.mem_erase hp)⟩
  · refine ⟨SMap.risesFrom_none_put m k v h.1, fun p hp => ?_⟩
    rcases SMap.mem_put hp with hp | hp
    · subst hp
      assumption
    · exact h.2 p hp

/-- A change keeps the canonical form. -/
theorem SMap.wf_upd [DecidableEq α] (d : α) (m : SMap α) (k : Nat) (f : α → α) (h : SMap.wf d m = true) :
    SMap.wf d (SMap.upd d m k f) = true := SMap.wf_set d m k _ h

/-- An erasure keeps the canonical form. -/
theorem SMap.wf_erase [DecidableEq α] (d : α) (m : SMap α) (k : Nat) (h : SMap.wf d m = true) :
    SMap.wf d (SMap.erase k m) = true := by
  rw [SMap.wf_iff] at h ⊢
  exact ⟨SMap.risesFrom_none_erase m k h.1, fun p hp => h.2 p (SMap.mem_erase hp)⟩

theorem SMap.risesFrom_mapVals [DecidableEq β] (e : β) (f : Nat → α → β) (m : SMap α) (j : Nat)
    (hm : SMap.risesFrom (some j) m = true) : SMap.risesFrom (some j) (SMap.mapVals e f m) = true := by
  induction m generalizing j with
  | nil => rfl
  | cons p m ih =>
    obtain ⟨i, w⟩ := p
    simp only [SMap.risesFrom, Bool.and_eq_true, decide_eq_true_eq] at hm
    simp only [SMap.mapVals]
    split
    · exact SMap.risesFrom_erase _ i j (SMap.risesFrom_mono _ (Nat.le_of_lt hm.1) (ih i hm.2))
    · simp only [SMap.risesFrom, Bool.and_eq_true, decide_eq_true_eq]
      exact ⟨hm.1, ih i hm.2⟩

/-- Changing every value keeps the canonical form. -/
theorem SMap.wf_mapVals [DecidableEq α] [DecidableEq β] (d : α) (e : β) (f : Nat → α → β) (m : SMap α)
    (h : SMap.wf d m = true) : SMap.wf e (SMap.mapVals e f m) = true := by
  rw [SMap.wf_iff] at h ⊢
  refine ⟨?_, ?_⟩
  · cases m with
    | nil => rfl
    | cons p m =>
      obtain ⟨i, w⟩ := p
      have hr : SMap.risesFrom (some i) m = true := h.1
      simp only [SMap.mapVals]
      split
      · exact SMap.rises_of_some (SMap.risesFrom_erase _ i i (SMap.risesFrom_mapVals e f m i hr))
      · exact SMap.risesFrom_mapVals e f m i hr
  · clear h
    induction m with
    | nil => simp [SMap.mapVals]
    | cons p m ih =>
      obtain ⟨i, w⟩ := p
      simp only [SMap.mapVals]
      split
      · exact fun p hp => ih p (SMap.mem_erase hp)
      · intro p hp
        simp only [List.mem_cons] at hp
        rcases hp with hp | hp
        · subst hp
          assumption
        · exact ih p hp

/-- Below its first key a map reads as the default. -/
theorem SMap.get_below (d : α) (m : SMap α) (j : Nat) (h : SMap.risesFrom (some j) m = true) (i : Nat)
    (hi : i ≤ j) : SMap.get d m i = d := by
  induction m generalizing j with
  | nil => rfl
  | cons p m ih =>
    obtain ⟨k, w⟩ := p
    simp only [SMap.risesFrom, Bool.and_eq_true, decide_eq_true_eq] at h
    simp only [SMap.get]
    rw [if_neg (by omega)]
    exact ih k h.2 (by omega)

/-- Equal arrays are equal lists. -/
theorem SMap.ext_wf [DecidableEq α] (d : α) (m n : SMap α) (hm : SMap.wf d m = true) (hn : SMap.wf d n = true)
    (h : ∀ i, SMap.get d m i = SMap.get d n i) : m = n := by
  induction m generalizing n with
  | nil =>
    cases n with
    | nil => rfl
    | cons q n =>
      obtain ⟨k, w⟩ := q
      have hk := h k
      have := (SMap.wf_iff d _).1 hn
      simp [SMap.get] at hk
      exact absurd hk.symm (this.2 (k, w) (by simp))
  | cons p m ih =>
    obtain ⟨i, v⟩ := p
    have hm' := (SMap.wf_iff d _).1 hm
    cases n with
    | nil =>
      have hk := h i
      simp [SMap.get] at hk
      exact absurd hk (hm'.2 (i, v) (by simp))
    | cons q n =>
      obtain ⟨k, w⟩ := q
      have hn' := (SMap.wf_iff d _).1 hn
      have r1 : SMap.risesFrom (some i) m = true := hm'.1
      have r2 : SMap.risesFrom (some k) n = true := hn'.1
      have hv : v ≠ d := hm'.2 (i, v) (by simp)
      have hw : w ≠ d := hn'.2 (k, w) (by simp)
      have hik : i = k := by
        rcases Nat.lt_trichotomy i k with hl | hl | hl
        · have hi := h i
          simp only [SMap.get, if_true] at hi
          rw [if_neg (by omega), SMap.get_below d n k r2 i (by omega)] at hi
          exact absurd hi hv
        · exact hl
        · have hi := h k
          simp only [SMap.get, if_true] at hi
          rw [if_neg (by omega), SMap.get_below d m i r1 k (by omega)] at hi
          exact absurd hi.symm hw
      subst hik
      have hvw : v = w := by
        have := h i
        simpa [SMap.get] using this
      subst hvw
      congr 1
      refine ih n ?_ ?_ ?_
      · exact (SMap.wf_iff d _).2 ⟨SMap.rises_of_some r1, fun p hp => hm'.2 p (by simp [hp])⟩
      · exact (SMap.wf_iff d _).2 ⟨SMap.rises_of_some r2, fun p hp => hn'.2 p (by simp [hp])⟩
      · intro x
        by_cases hx : x = i
        · subst hx
          rw [SMap.get_below d m x r1 x (Nat.le_refl x), SMap.get_below d n x r2 x (Nat.le_refl x)]
        · have := h x
          simpa [SMap.get, hx] using this

end Sys2Proof.Machine
end

