-- ==== Sys2Proof/Laws/State.lean ====
section
/-!
SUPPORT. One lemma per field and per change function: a change function changes its own field and no other.
-/

namespace Sys2Proof.Machine

/-! ### `onFree` -/

@[simp] theorem State.onFree_pending (s : State) (f : Nat → Nat) : (s.onFree f).pending = s.pending := rfl
@[simp] theorem State.onFree_free (s : State) (f : Nat → Nat) : (s.onFree f).free = f s.free := rfl
@[simp] theorem State.onFree_boot (s : State) (f : Nat → Nat) : (s.onFree f).boot = s.boot := rfl
@[simp] theorem State.onFree_straps (s : State) (f : Nat → Nat) : (s.onFree f).straps = s.straps := rfl
@[simp] theorem State.onFree_fatal (s : State) (f : Nat → Nat) : (s.onFree f).fatal = s.fatal := rfl
@[simp] theorem State.onFree_img (s : State) (f : Nat → Nat) : (s.onFree f).img = s.img := rfl
@[simp] theorem State.onFree_arr (s : State) (f : Nat → Nat) : (s.onFree f).arr = s.arr := rfl
@[simp] theorem State.onFree_stripes (s : State) (f : Nat → Nat) : (s.onFree f).stripes = s.stripes := rfl
@[simp] theorem State.onFree_upsets (s : State) (f : Nat → Nat) : (s.onFree f).upsets = s.upsets := rfl
@[simp] theorem State.onFree_cfl (s : State) (f : Nat → Nat) : (s.onFree f).cfl = s.cfl := rfl
@[simp] theorem State.onFree_weir (s : State) (f : Nat → Nat) : (s.onFree f).weir = s.weir := rfl
@[simp] theorem State.onFree_ctxs (s : State) (f : Nat → Nat) : (s.onFree f).ctxs = s.ctxs := rfl
@[simp] theorem State.onFree_grps (s : State) (f : Nat → Nat) : (s.onFree f).grps = s.grps := rfl
@[simp] theorem State.onFree_ports (s : State) (f : Nat → Nat) : (s.onFree f).ports = s.ports := rfl
@[simp] theorem State.onFree_slcs (s : State) (f : Nat → Nat) : (s.onFree f).slcs = s.slcs := rfl
@[simp] theorem State.onFree_slog (s : State) (f : Nat → Nat) : (s.onFree f).slog = s.slog := rfl
@[simp] theorem State.onFree_tb (s : State) (f : Nat → Nat) : (s.onFree f).tb = s.tb := rfl
@[simp] theorem State.onFree_lanes (s : State) (f : Nat → Nat) : (s.onFree f).lanes = s.lanes := rfl
@[simp] theorem State.onFree_lcnts (s : State) (f : Nat → Nat) : (s.onFree f).lcnts = s.lcnts := rfl
@[simp] theorem State.onFree_lports (s : State) (f : Nat → Nat) : (s.onFree f).lports = s.lports := rfl
@[simp] theorem State.onFree_lauth (s : State) (f : Nat → Nat) : (s.onFree f).lauth = s.lauth := rfl
@[simp] theorem State.onFree_cas (s : State) (f : Nat → Nat) : (s.onFree f).cas = s.cas := rfl
@[simp] theorem State.onFree_lev (s : State) (f : Nat → Nat) : (s.onFree f).lev = s.lev := rfl
@[simp] theorem State.onFree_pwr (s : State) (f : Nat → Nat) : (s.onFree f).pwr = s.pwr := rfl
@[simp] theorem State.onFree_reg (s : State) (f : Nat → Nat) : (s.onFree f).reg = s.reg := rfl
@[simp] theorem State.onFree_mem (s : State) (f : Nat → Nat) : (s.onFree f).mem = s.mem := rfl
@[simp] theorem State.onFree_saf (s : State) (f : Nat → Nat) : (s.onFree f).saf = s.saf := rfl
@[simp] theorem State.onFree_trace (s : State) (f : Nat → Nat) : (s.onFree f).trace = s.trace := rfl
@[simp] theorem State.onFree_tap (s : State) (f : Nat → Nat) : (s.onFree f).tap = s.tap := rfl
@[simp] theorem State.onFree_keys (s : State) (f : Nat → Nat) : (s.onFree f).keys = s.keys := rfl
@[simp] theorem State.onFree_mbx (s : State) (f : Nat → Nat) : (s.onFree f).mbx = s.mbx := rfl

/-! ### `onBoot` -/

@[simp] theorem State.onBoot_pending (s : State) (f : Boot → Boot) : (s.onBoot f).pending = s.pending := rfl
@[simp] theorem State.onBoot_free (s : State) (f : Boot → Boot) : (s.onBoot f).free = s.free := rfl
@[simp] theorem State.onBoot_boot (s : State) (f : Boot → Boot) : (s.onBoot f).boot = f s.boot := rfl
@[simp] theorem State.onBoot_straps (s : State) (f : Boot → Boot) : (s.onBoot f).straps = s.straps := rfl
@[simp] theorem State.onBoot_fatal (s : State) (f : Boot → Boot) : (s.onBoot f).fatal = s.fatal := rfl
@[simp] theorem State.onBoot_img (s : State) (f : Boot → Boot) : (s.onBoot f).img = s.img := rfl
@[simp] theorem State.onBoot_arr (s : State) (f : Boot → Boot) : (s.onBoot f).arr = s.arr := rfl
@[simp] theorem State.onBoot_stripes (s : State) (f : Boot → Boot) : (s.onBoot f).stripes = s.stripes := rfl
@[simp] theorem State.onBoot_upsets (s : State) (f : Boot → Boot) : (s.onBoot f).upsets = s.upsets := rfl
@[simp] theorem State.onBoot_cfl (s : State) (f : Boot → Boot) : (s.onBoot f).cfl = s.cfl := rfl
@[simp] theorem State.onBoot_weir (s : State) (f : Boot → Boot) : (s.onBoot f).weir = s.weir := rfl
@[simp] theorem State.onBoot_ctxs (s : State) (f : Boot → Boot) : (s.onBoot f).ctxs = s.ctxs := rfl
@[simp] theorem State.onBoot_grps (s : State) (f : Boot → Boot) : (s.onBoot f).grps = s.grps := rfl
@[simp] theorem State.onBoot_ports (s : State) (f : Boot → Boot) : (s.onBoot f).ports = s.ports := rfl
@[simp] theorem State.onBoot_slcs (s : State) (f : Boot → Boot) : (s.onBoot f).slcs = s.slcs := rfl
@[simp] theorem State.onBoot_slog (s : State) (f : Boot → Boot) : (s.onBoot f).slog = s.slog := rfl
@[simp] theorem State.onBoot_tb (s : State) (f : Boot → Boot) : (s.onBoot f).tb = s.tb := rfl
@[simp] theorem State.onBoot_lanes (s : State) (f : Boot → Boot) : (s.onBoot f).lanes = s.lanes := rfl
@[simp] theorem State.onBoot_lcnts (s : State) (f : Boot → Boot) : (s.onBoot f).lcnts = s.lcnts := rfl
@[simp] theorem State.onBoot_lports (s : State) (f : Boot → Boot) : (s.onBoot f).lports = s.lports := rfl
@[simp] theorem State.onBoot_lauth (s : State) (f : Boot → Boot) : (s.onBoot f).lauth = s.lauth := rfl
@[simp] theorem State.onBoot_cas (s : State) (f : Boot → Boot) : (s.onBoot f).cas = s.cas := rfl
@[simp] theorem State.onBoot_lev (s : State) (f : Boot → Boot) : (s.onBoot f).lev = s.lev := rfl
@[simp] theorem State.onBoot_pwr (s : State) (f : Boot → Boot) : (s.onBoot f).pwr = s.pwr := rfl
@[simp] theorem State.onBoot_reg (s : State) (f : Boot → Boot) : (s.onBoot f).reg = s.reg := rfl
@[simp] theorem State.onBoot_mem (s : State) (f : Boot → Boot) : (s.onBoot f).mem = s.mem := rfl
@[simp] theorem State.onBoot_saf (s : State) (f : Boot → Boot) : (s.onBoot f).saf = s.saf := rfl
@[simp] theorem State.onBoot_trace (s : State) (f : Boot → Boot) : (s.onBoot f).trace = s.trace := rfl
@[simp] theorem State.onBoot_tap (s : State) (f : Boot → Boot) : (s.onBoot f).tap = s.tap := rfl
@[simp] theorem State.onBoot_keys (s : State) (f : Boot → Boot) : (s.onBoot f).keys = s.keys := rfl
@[simp] theorem State.onBoot_mbx (s : State) (f : Boot → Boot) : (s.onBoot f).mbx = s.mbx := rfl

/-! ### `onStraps` -/

@[simp] theorem State.onStraps_pending (s : State) (f : Straps → Straps) : (s.onStraps f).pending = s.pending := rfl
@[simp] theorem State.onStraps_free (s : State) (f : Straps → Straps) : (s.onStraps f).free = s.free := rfl
@[simp] theorem State.onStraps_boot (s : State) (f : Straps → Straps) : (s.onStraps f).boot = s.boot := rfl
@[simp] theorem State.onStraps_straps (s : State) (f : Straps → Straps) : (s.onStraps f).straps = f s.straps := rfl
@[simp] theorem State.onStraps_fatal (s : State) (f : Straps → Straps) : (s.onStraps f).fatal = s.fatal := rfl
@[simp] theorem State.onStraps_img (s : State) (f : Straps → Straps) : (s.onStraps f).img = s.img := rfl
@[simp] theorem State.onStraps_arr (s : State) (f : Straps → Straps) : (s.onStraps f).arr = s.arr := rfl
@[simp] theorem State.onStraps_stripes (s : State) (f : Straps → Straps) : (s.onStraps f).stripes = s.stripes := rfl
@[simp] theorem State.onStraps_upsets (s : State) (f : Straps → Straps) : (s.onStraps f).upsets = s.upsets := rfl
@[simp] theorem State.onStraps_cfl (s : State) (f : Straps → Straps) : (s.onStraps f).cfl = s.cfl := rfl
@[simp] theorem State.onStraps_weir (s : State) (f : Straps → Straps) : (s.onStraps f).weir = s.weir := rfl
@[simp] theorem State.onStraps_ctxs (s : State) (f : Straps → Straps) : (s.onStraps f).ctxs = s.ctxs := rfl
@[simp] theorem State.onStraps_grps (s : State) (f : Straps → Straps) : (s.onStraps f).grps = s.grps := rfl
@[simp] theorem State.onStraps_ports (s : State) (f : Straps → Straps) : (s.onStraps f).ports = s.ports := rfl
@[simp] theorem State.onStraps_slcs (s : State) (f : Straps → Straps) : (s.onStraps f).slcs = s.slcs := rfl
@[simp] theorem State.onStraps_slog (s : State) (f : Straps → Straps) : (s.onStraps f).slog = s.slog := rfl
@[simp] theorem State.onStraps_tb (s : State) (f : Straps → Straps) : (s.onStraps f).tb = s.tb := rfl
@[simp] theorem State.onStraps_lanes (s : State) (f : Straps → Straps) : (s.onStraps f).lanes = s.lanes := rfl
@[simp] theorem State.onStraps_lcnts (s : State) (f : Straps → Straps) : (s.onStraps f).lcnts = s.lcnts := rfl
@[simp] theorem State.onStraps_lports (s : State) (f : Straps → Straps) : (s.onStraps f).lports = s.lports := rfl
@[simp] theorem State.onStraps_lauth (s : State) (f : Straps → Straps) : (s.onStraps f).lauth = s.lauth := rfl
@[simp] theorem State.onStraps_cas (s : State) (f : Straps → Straps) : (s.onStraps f).cas = s.cas := rfl
@[simp] theorem State.onStraps_lev (s : State) (f : Straps → Straps) : (s.onStraps f).lev = s.lev := rfl
@[simp] theorem State.onStraps_pwr (s : State) (f : Straps → Straps) : (s.onStraps f).pwr = s.pwr := rfl
@[simp] theorem State.onStraps_reg (s : State) (f : Straps → Straps) : (s.onStraps f).reg = s.reg := rfl
@[simp] theorem State.onStraps_mem (s : State) (f : Straps → Straps) : (s.onStraps f).mem = s.mem := rfl
@[simp] theorem State.onStraps_saf (s : State) (f : Straps → Straps) : (s.onStraps f).saf = s.saf := rfl
@[simp] theorem State.onStraps_trace (s : State) (f : Straps → Straps) : (s.onStraps f).trace = s.trace := rfl
@[simp] theorem State.onStraps_tap (s : State) (f : Straps → Straps) : (s.onStraps f).tap = s.tap := rfl
@[simp] theorem State.onStraps_keys (s : State) (f : Straps → Straps) : (s.onStraps f).keys = s.keys := rfl
@[simp] theorem State.onStraps_mbx (s : State) (f : Straps → Straps) : (s.onStraps f).mbx = s.mbx := rfl

/-! ### `onFatal` -/

@[simp] theorem State.onFatal_pending (s : State) (f : Fatal → Fatal) : (s.onFatal f).pending = s.pending := rfl
@[simp] theorem State.onFatal_free (s : State) (f : Fatal → Fatal) : (s.onFatal f).free = s.free := rfl
@[simp] theorem State.onFatal_boot (s : State) (f : Fatal → Fatal) : (s.onFatal f).boot = s.boot := rfl
@[simp] theorem State.onFatal_straps (s : State) (f : Fatal → Fatal) : (s.onFatal f).straps = s.straps := rfl
@[simp] theorem State.onFatal_fatal (s : State) (f : Fatal → Fatal) : (s.onFatal f).fatal = f s.fatal := rfl
@[simp] theorem State.onFatal_img (s : State) (f : Fatal → Fatal) : (s.onFatal f).img = s.img := rfl
@[simp] theorem State.onFatal_arr (s : State) (f : Fatal → Fatal) : (s.onFatal f).arr = s.arr := rfl
@[simp] theorem State.onFatal_stripes (s : State) (f : Fatal → Fatal) : (s.onFatal f).stripes = s.stripes := rfl
@[simp] theorem State.onFatal_upsets (s : State) (f : Fatal → Fatal) : (s.onFatal f).upsets = s.upsets := rfl
@[simp] theorem State.onFatal_cfl (s : State) (f : Fatal → Fatal) : (s.onFatal f).cfl = s.cfl := rfl
@[simp] theorem State.onFatal_weir (s : State) (f : Fatal → Fatal) : (s.onFatal f).weir = s.weir := rfl
@[simp] theorem State.onFatal_ctxs (s : State) (f : Fatal → Fatal) : (s.onFatal f).ctxs = s.ctxs := rfl
@[simp] theorem State.onFatal_grps (s : State) (f : Fatal → Fatal) : (s.onFatal f).grps = s.grps := rfl
@[simp] theorem State.onFatal_ports (s : State) (f : Fatal → Fatal) : (s.onFatal f).ports = s.ports := rfl
@[simp] theorem State.onFatal_slcs (s : State) (f : Fatal → Fatal) : (s.onFatal f).slcs = s.slcs := rfl
@[simp] theorem State.onFatal_slog (s : State) (f : Fatal → Fatal) : (s.onFatal f).slog = s.slog := rfl
@[simp] theorem State.onFatal_tb (s : State) (f : Fatal → Fatal) : (s.onFatal f).tb = s.tb := rfl
@[simp] theorem State.onFatal_lanes (s : State) (f : Fatal → Fatal) : (s.onFatal f).lanes = s.lanes := rfl
@[simp] theorem State.onFatal_lcnts (s : State) (f : Fatal → Fatal) : (s.onFatal f).lcnts = s.lcnts := rfl
@[simp] theorem State.onFatal_lports (s : State) (f : Fatal → Fatal) : (s.onFatal f).lports = s.lports := rfl
@[simp] theorem State.onFatal_lauth (s : State) (f : Fatal → Fatal) : (s.onFatal f).lauth = s.lauth := rfl
@[simp] theorem State.onFatal_cas (s : State) (f : Fatal → Fatal) : (s.onFatal f).cas = s.cas := rfl
@[simp] theorem State.onFatal_lev (s : State) (f : Fatal → Fatal) : (s.onFatal f).lev = s.lev := rfl
@[simp] theorem State.onFatal_pwr (s : State) (f : Fatal → Fatal) : (s.onFatal f).pwr = s.pwr := rfl
@[simp] theorem State.onFatal_reg (s : State) (f : Fatal → Fatal) : (s.onFatal f).reg = s.reg := rfl
@[simp] theorem State.onFatal_mem (s : State) (f : Fatal → Fatal) : (s.onFatal f).mem = s.mem := rfl
@[simp] theorem State.onFatal_saf (s : State) (f : Fatal → Fatal) : (s.onFatal f).saf = s.saf := rfl
@[simp] theorem State.onFatal_trace (s : State) (f : Fatal → Fatal) : (s.onFatal f).trace = s.trace := rfl
@[simp] theorem State.onFatal_tap (s : State) (f : Fatal → Fatal) : (s.onFatal f).tap = s.tap := rfl
@[simp] theorem State.onFatal_keys (s : State) (f : Fatal → Fatal) : (s.onFatal f).keys = s.keys := rfl
@[simp] theorem State.onFatal_mbx (s : State) (f : Fatal → Fatal) : (s.onFatal f).mbx = s.mbx := rfl

/-! ### `onImg` -/

@[simp] theorem State.onImg_pending (s : State) (f : Img → Img) : (s.onImg f).pending = s.pending := rfl
@[simp] theorem State.onImg_free (s : State) (f : Img → Img) : (s.onImg f).free = s.free := rfl
@[simp] theorem State.onImg_boot (s : State) (f : Img → Img) : (s.onImg f).boot = s.boot := rfl
@[simp] theorem State.onImg_straps (s : State) (f : Img → Img) : (s.onImg f).straps = s.straps := rfl
@[simp] theorem State.onImg_fatal (s : State) (f : Img → Img) : (s.onImg f).fatal = s.fatal := rfl
@[simp] theorem State.onImg_img (s : State) (f : Img → Img) : (s.onImg f).img = f s.img := rfl
@[simp] theorem State.onImg_arr (s : State) (f : Img → Img) : (s.onImg f).arr = s.arr := rfl
@[simp] theorem State.onImg_stripes (s : State) (f : Img → Img) : (s.onImg f).stripes = s.stripes := rfl
@[simp] theorem State.onImg_upsets (s : State) (f : Img → Img) : (s.onImg f).upsets = s.upsets := rfl
@[simp] theorem State.onImg_cfl (s : State) (f : Img → Img) : (s.onImg f).cfl = s.cfl := rfl
@[simp] theorem State.onImg_weir (s : State) (f : Img → Img) : (s.onImg f).weir = s.weir := rfl
@[simp] theorem State.onImg_ctxs (s : State) (f : Img → Img) : (s.onImg f).ctxs = s.ctxs := rfl
@[simp] theorem State.onImg_grps (s : State) (f : Img → Img) : (s.onImg f).grps = s.grps := rfl
@[simp] theorem State.onImg_ports (s : State) (f : Img → Img) : (s.onImg f).ports = s.ports := rfl
@[simp] theorem State.onImg_slcs (s : State) (f : Img → Img) : (s.onImg f).slcs = s.slcs := rfl
@[simp] theorem State.onImg_slog (s : State) (f : Img → Img) : (s.onImg f).slog = s.slog := rfl
@[simp] theorem State.onImg_tb (s : State) (f : Img → Img) : (s.onImg f).tb = s.tb := rfl
@[simp] theorem State.onImg_lanes (s : State) (f : Img → Img) : (s.onImg f).lanes = s.lanes := rfl
@[simp] theorem State.onImg_lcnts (s : State) (f : Img → Img) : (s.onImg f).lcnts = s.lcnts := rfl
@[simp] theorem State.onImg_lports (s : State) (f : Img → Img) : (s.onImg f).lports = s.lports := rfl
@[simp] theorem State.onImg_lauth (s : State) (f : Img → Img) : (s.onImg f).lauth = s.lauth := rfl
@[simp] theorem State.onImg_cas (s : State) (f : Img → Img) : (s.onImg f).cas = s.cas := rfl
@[simp] theorem State.onImg_lev (s : State) (f : Img → Img) : (s.onImg f).lev = s.lev := rfl
@[simp] theorem State.onImg_pwr (s : State) (f : Img → Img) : (s.onImg f).pwr = s.pwr := rfl
@[simp] theorem State.onImg_reg (s : State) (f : Img → Img) : (s.onImg f).reg = s.reg := rfl
@[simp] theorem State.onImg_mem (s : State) (f : Img → Img) : (s.onImg f).mem = s.mem := rfl
@[simp] theorem State.onImg_saf (s : State) (f : Img → Img) : (s.onImg f).saf = s.saf := rfl
@[simp] theorem State.onImg_trace (s : State) (f : Img → Img) : (s.onImg f).trace = s.trace := rfl
@[simp] theorem State.onImg_tap (s : State) (f : Img → Img) : (s.onImg f).tap = s.tap := rfl
@[simp] theorem State.onImg_keys (s : State) (f : Img → Img) : (s.onImg f).keys = s.keys := rfl
@[simp] theorem State.onImg_mbx (s : State) (f : Img → Img) : (s.onImg f).mbx = s.mbx := rfl

/-! ### `onArr` -/

@[simp] theorem State.onArr_pending (s : State) (f : Arr → Arr) : (s.onArr f).pending = s.pending := rfl
@[simp] theorem State.onArr_free (s : State) (f : Arr → Arr) : (s.onArr f).free = s.free := rfl
@[simp] theorem State.onArr_boot (s : State) (f : Arr → Arr) : (s.onArr f).boot = s.boot := rfl
@[simp] theorem State.onArr_straps (s : State) (f : Arr → Arr) : (s.onArr f).straps = s.straps := rfl
@[simp] theorem State.onArr_fatal (s : State) (f : Arr → Arr) : (s.onArr f).fatal = s.fatal := rfl
@[simp] theorem State.onArr_img (s : State) (f : Arr → Arr) : (s.onArr f).img = s.img := rfl
@[simp] theorem State.onArr_arr (s : State) (f : Arr → Arr) : (s.onArr f).arr = f s.arr := rfl
@[simp] theorem State.onArr_stripes (s : State) (f : Arr → Arr) : (s.onArr f).stripes = s.stripes := rfl
@[simp] theorem State.onArr_upsets (s : State) (f : Arr → Arr) : (s.onArr f).upsets = s.upsets := rfl
@[simp] theorem State.onArr_cfl (s : State) (f : Arr → Arr) : (s.onArr f).cfl = s.cfl := rfl
@[simp] theorem State.onArr_weir (s : State) (f : Arr → Arr) : (s.onArr f).weir = s.weir := rfl
@[simp] theorem State.onArr_ctxs (s : State) (f : Arr → Arr) : (s.onArr f).ctxs = s.ctxs := rfl
@[simp] theorem State.onArr_grps (s : State) (f : Arr → Arr) : (s.onArr f).grps = s.grps := rfl
@[simp] theorem State.onArr_ports (s : State) (f : Arr → Arr) : (s.onArr f).ports = s.ports := rfl
@[simp] theorem State.onArr_slcs (s : State) (f : Arr → Arr) : (s.onArr f).slcs = s.slcs := rfl
@[simp] theorem State.onArr_slog (s : State) (f : Arr → Arr) : (s.onArr f).slog = s.slog := rfl
@[simp] theorem State.onArr_tb (s : State) (f : Arr → Arr) : (s.onArr f).tb = s.tb := rfl
@[simp] theorem State.onArr_lanes (s : State) (f : Arr → Arr) : (s.onArr f).lanes = s.lanes := rfl
@[simp] theorem State.onArr_lcnts (s : State) (f : Arr → Arr) : (s.onArr f).lcnts = s.lcnts := rfl
@[simp] theorem State.onArr_lports (s : State) (f : Arr → Arr) : (s.onArr f).lports = s.lports := rfl
@[simp] theorem State.onArr_lauth (s : State) (f : Arr → Arr) : (s.onArr f).lauth = s.lauth := rfl
@[simp] theorem State.onArr_cas (s : State) (f : Arr → Arr) : (s.onArr f).cas = s.cas := rfl
@[simp] theorem State.onArr_lev (s : State) (f : Arr → Arr) : (s.onArr f).lev = s.lev := rfl
@[simp] theorem State.onArr_pwr (s : State) (f : Arr → Arr) : (s.onArr f).pwr = s.pwr := rfl
@[simp] theorem State.onArr_reg (s : State) (f : Arr → Arr) : (s.onArr f).reg = s.reg := rfl
@[simp] theorem State.onArr_mem (s : State) (f : Arr → Arr) : (s.onArr f).mem = s.mem := rfl
@[simp] theorem State.onArr_saf (s : State) (f : Arr → Arr) : (s.onArr f).saf = s.saf := rfl
@[simp] theorem State.onArr_trace (s : State) (f : Arr → Arr) : (s.onArr f).trace = s.trace := rfl
@[simp] theorem State.onArr_tap (s : State) (f : Arr → Arr) : (s.onArr f).tap = s.tap := rfl
@[simp] theorem State.onArr_keys (s : State) (f : Arr → Arr) : (s.onArr f).keys = s.keys := rfl
@[simp] theorem State.onArr_mbx (s : State) (f : Arr → Arr) : (s.onArr f).mbx = s.mbx := rfl

/-! ### `onStripes` -/

@[simp] theorem State.onStripes_pending (s : State) (f : Stripes → Stripes) : (s.onStripes f).pending = s.pending := rfl
@[simp] theorem State.onStripes_free (s : State) (f : Stripes → Stripes) : (s.onStripes f).free = s.free := rfl
@[simp] theorem State.onStripes_boot (s : State) (f : Stripes → Stripes) : (s.onStripes f).boot = s.boot := rfl
@[simp] theorem State.onStripes_straps (s : State) (f : Stripes → Stripes) : (s.onStripes f).straps = s.straps := rfl
@[simp] theorem State.onStripes_fatal (s : State) (f : Stripes → Stripes) : (s.onStripes f).fatal = s.fatal := rfl
@[simp] theorem State.onStripes_img (s : State) (f : Stripes → Stripes) : (s.onStripes f).img = s.img := rfl
@[simp] theorem State.onStripes_arr (s : State) (f : Stripes → Stripes) : (s.onStripes f).arr = s.arr := rfl
@[simp] theorem State.onStripes_stripes (s : State) (f : Stripes → Stripes) : (s.onStripes f).stripes = f s.stripes := rfl
@[simp] theorem State.onStripes_upsets (s : State) (f : Stripes → Stripes) : (s.onStripes f).upsets = s.upsets := rfl
@[simp] theorem State.onStripes_cfl (s : State) (f : Stripes → Stripes) : (s.onStripes f).cfl = s.cfl := rfl
@[simp] theorem State.onStripes_weir (s : State) (f : Stripes → Stripes) : (s.onStripes f).weir = s.weir := rfl
@[simp] theorem State.onStripes_ctxs (s : State) (f : Stripes → Stripes) : (s.onStripes f).ctxs = s.ctxs := rfl
@[simp] theorem State.onStripes_grps (s : State) (f : Stripes → Stripes) : (s.onStripes f).grps = s.grps := rfl
@[simp] theorem State.onStripes_ports (s : State) (f : Stripes → Stripes) : (s.onStripes f).ports = s.ports := rfl
@[simp] theorem State.onStripes_slcs (s : State) (f : Stripes → Stripes) : (s.onStripes f).slcs = s.slcs := rfl
@[simp] theorem State.onStripes_slog (s : State) (f : Stripes → Stripes) : (s.onStripes f).slog = s.slog := rfl
@[simp] theorem State.onStripes_tb (s : State) (f : Stripes → Stripes) : (s.onStripes f).tb = s.tb := rfl
@[simp] theorem State.onStripes_lanes (s : State) (f : Stripes → Stripes) : (s.onStripes f).lanes = s.lanes := rfl
@[simp] theorem State.onStripes_lcnts (s : State) (f : Stripes → Stripes) : (s.onStripes f).lcnts = s.lcnts := rfl
@[simp] theorem State.onStripes_lports (s : State) (f : Stripes → Stripes) : (s.onStripes f).lports = s.lports := rfl
@[simp] theorem State.onStripes_lauth (s : State) (f : Stripes → Stripes) : (s.onStripes f).lauth = s.lauth := rfl
@[simp] theorem State.onStripes_cas (s : State) (f : Stripes → Stripes) : (s.onStripes f).cas = s.cas := rfl
@[simp] theorem State.onStripes_lev (s : State) (f : Stripes → Stripes) : (s.onStripes f).lev = s.lev := rfl
@[simp] theorem State.onStripes_pwr (s : State) (f : Stripes → Stripes) : (s.onStripes f).pwr = s.pwr := rfl
@[simp] theorem State.onStripes_reg (s : State) (f : Stripes → Stripes) : (s.onStripes f).reg = s.reg := rfl
@[simp] theorem State.onStripes_mem (s : State) (f : Stripes → Stripes) : (s.onStripes f).mem = s.mem := rfl
@[simp] theorem State.onStripes_saf (s : State) (f : Stripes → Stripes) : (s.onStripes f).saf = s.saf := rfl
@[simp] theorem State.onStripes_trace (s : State) (f : Stripes → Stripes) : (s.onStripes f).trace = s.trace := rfl
@[simp] theorem State.onStripes_tap (s : State) (f : Stripes → Stripes) : (s.onStripes f).tap = s.tap := rfl
@[simp] theorem State.onStripes_keys (s : State) (f : Stripes → Stripes) : (s.onStripes f).keys = s.keys := rfl
@[simp] theorem State.onStripes_mbx (s : State) (f : Stripes → Stripes) : (s.onStripes f).mbx = s.mbx := rfl

/-! ### `onCfl` -/

@[simp] theorem State.onCfl_pending (s : State) (f : Cfl → Cfl) : (s.onCfl f).pending = s.pending := rfl
@[simp] theorem State.onCfl_free (s : State) (f : Cfl → Cfl) : (s.onCfl f).free = s.free := rfl
@[simp] theorem State.onCfl_boot (s : State) (f : Cfl → Cfl) : (s.onCfl f).boot = s.boot := rfl
@[simp] theorem State.onCfl_straps (s : State) (f : Cfl → Cfl) : (s.onCfl f).straps = s.straps := rfl
@[simp] theorem State.onCfl_fatal (s : State) (f : Cfl → Cfl) : (s.onCfl f).fatal = s.fatal := rfl
@[simp] theorem State.onCfl_img (s : State) (f : Cfl → Cfl) : (s.onCfl f).img = s.img := rfl
@[simp] theorem State.onCfl_arr (s : State) (f : Cfl → Cfl) : (s.onCfl f).arr = s.arr := rfl
@[simp] theorem State.onCfl_stripes (s : State) (f : Cfl → Cfl) : (s.onCfl f).stripes = s.stripes := rfl
@[simp] theorem State.onCfl_upsets (s : State) (f : Cfl → Cfl) : (s.onCfl f).upsets = s.upsets := rfl
@[simp] theorem State.onCfl_cfl (s : State) (f : Cfl → Cfl) : (s.onCfl f).cfl = f s.cfl := rfl
@[simp] theorem State.onCfl_weir (s : State) (f : Cfl → Cfl) : (s.onCfl f).weir = s.weir := rfl
@[simp] theorem State.onCfl_ctxs (s : State) (f : Cfl → Cfl) : (s.onCfl f).ctxs = s.ctxs := rfl
@[simp] theorem State.onCfl_grps (s : State) (f : Cfl → Cfl) : (s.onCfl f).grps = s.grps := rfl
@[simp] theorem State.onCfl_ports (s : State) (f : Cfl → Cfl) : (s.onCfl f).ports = s.ports := rfl
@[simp] theorem State.onCfl_slcs (s : State) (f : Cfl → Cfl) : (s.onCfl f).slcs = s.slcs := rfl
@[simp] theorem State.onCfl_slog (s : State) (f : Cfl → Cfl) : (s.onCfl f).slog = s.slog := rfl
@[simp] theorem State.onCfl_tb (s : State) (f : Cfl → Cfl) : (s.onCfl f).tb = s.tb := rfl
@[simp] theorem State.onCfl_lanes (s : State) (f : Cfl → Cfl) : (s.onCfl f).lanes = s.lanes := rfl
@[simp] theorem State.onCfl_lcnts (s : State) (f : Cfl → Cfl) : (s.onCfl f).lcnts = s.lcnts := rfl
@[simp] theorem State.onCfl_lports (s : State) (f : Cfl → Cfl) : (s.onCfl f).lports = s.lports := rfl
@[simp] theorem State.onCfl_lauth (s : State) (f : Cfl → Cfl) : (s.onCfl f).lauth = s.lauth := rfl
@[simp] theorem State.onCfl_cas (s : State) (f : Cfl → Cfl) : (s.onCfl f).cas = s.cas := rfl
@[simp] theorem State.onCfl_lev (s : State) (f : Cfl → Cfl) : (s.onCfl f).lev = s.lev := rfl
@[simp] theorem State.onCfl_pwr (s : State) (f : Cfl → Cfl) : (s.onCfl f).pwr = s.pwr := rfl
@[simp] theorem State.onCfl_reg (s : State) (f : Cfl → Cfl) : (s.onCfl f).reg = s.reg := rfl
@[simp] theorem State.onCfl_mem (s : State) (f : Cfl → Cfl) : (s.onCfl f).mem = s.mem := rfl
@[simp] theorem State.onCfl_saf (s : State) (f : Cfl → Cfl) : (s.onCfl f).saf = s.saf := rfl
@[simp] theorem State.onCfl_trace (s : State) (f : Cfl → Cfl) : (s.onCfl f).trace = s.trace := rfl
@[simp] theorem State.onCfl_tap (s : State) (f : Cfl → Cfl) : (s.onCfl f).tap = s.tap := rfl
@[simp] theorem State.onCfl_keys (s : State) (f : Cfl → Cfl) : (s.onCfl f).keys = s.keys := rfl
@[simp] theorem State.onCfl_mbx (s : State) (f : Cfl → Cfl) : (s.onCfl f).mbx = s.mbx := rfl

/-! ### `onWeir` -/

@[simp] theorem State.onWeir_pending (s : State) (f : Weir → Weir) : (s.onWeir f).pending = s.pending := rfl
@[simp] theorem State.onWeir_free (s : State) (f : Weir → Weir) : (s.onWeir f).free = s.free := rfl
@[simp] theorem State.onWeir_boot (s : State) (f : Weir → Weir) : (s.onWeir f).boot = s.boot := rfl
@[simp] theorem State.onWeir_straps (s : State) (f : Weir → Weir) : (s.onWeir f).straps = s.straps := rfl
@[simp] theorem State.onWeir_fatal (s : State) (f : Weir → Weir) : (s.onWeir f).fatal = s.fatal := rfl
@[simp] theorem State.onWeir_img (s : State) (f : Weir → Weir) : (s.onWeir f).img = s.img := rfl
@[simp] theorem State.onWeir_arr (s : State) (f : Weir → Weir) : (s.onWeir f).arr = s.arr := rfl
@[simp] theorem State.onWeir_stripes (s : State) (f : Weir → Weir) : (s.onWeir f).stripes = s.stripes := rfl
@[simp] theorem State.onWeir_upsets (s : State) (f : Weir → Weir) : (s.onWeir f).upsets = s.upsets := rfl
@[simp] theorem State.onWeir_cfl (s : State) (f : Weir → Weir) : (s.onWeir f).cfl = s.cfl := rfl
@[simp] theorem State.onWeir_weir (s : State) (f : Weir → Weir) : (s.onWeir f).weir = f s.weir := rfl
@[simp] theorem State.onWeir_ctxs (s : State) (f : Weir → Weir) : (s.onWeir f).ctxs = s.ctxs := rfl
@[simp] theorem State.onWeir_grps (s : State) (f : Weir → Weir) : (s.onWeir f).grps = s.grps := rfl
@[simp] theorem State.onWeir_ports (s : State) (f : Weir → Weir) : (s.onWeir f).ports = s.ports := rfl
@[simp] theorem State.onWeir_slcs (s : State) (f : Weir → Weir) : (s.onWeir f).slcs = s.slcs := rfl
@[simp] theorem State.onWeir_slog (s : State) (f : Weir → Weir) : (s.onWeir f).slog = s.slog := rfl
@[simp] theorem State.onWeir_tb (s : State) (f : Weir → Weir) : (s.onWeir f).tb = s.tb := rfl
@[simp] theorem State.onWeir_lanes (s : State) (f : Weir → Weir) : (s.onWeir f).lanes = s.lanes := rfl
@[simp] theorem State.onWeir_lcnts (s : State) (f : Weir → Weir) : (s.onWeir f).lcnts = s.lcnts := rfl
@[simp] theorem State.onWeir_lports (s : State) (f : Weir → Weir) : (s.onWeir f).lports = s.lports := rfl
@[simp] theorem State.onWeir_lauth (s : State) (f : Weir → Weir) : (s.onWeir f).lauth = s.lauth := rfl
@[simp] theorem State.onWeir_cas (s : State) (f : Weir → Weir) : (s.onWeir f).cas = s.cas := rfl
@[simp] theorem State.onWeir_lev (s : State) (f : Weir → Weir) : (s.onWeir f).lev = s.lev := rfl
@[simp] theorem State.onWeir_pwr (s : State) (f : Weir → Weir) : (s.onWeir f).pwr = s.pwr := rfl
@[simp] theorem State.onWeir_reg (s : State) (f : Weir → Weir) : (s.onWeir f).reg = s.reg := rfl
@[simp] theorem State.onWeir_mem (s : State) (f : Weir → Weir) : (s.onWeir f).mem = s.mem := rfl
@[simp] theorem State.onWeir_saf (s : State) (f : Weir → Weir) : (s.onWeir f).saf = s.saf := rfl
@[simp] theorem State.onWeir_trace (s : State) (f : Weir → Weir) : (s.onWeir f).trace = s.trace := rfl
@[simp] theorem State.onWeir_tap (s : State) (f : Weir → Weir) : (s.onWeir f).tap = s.tap := rfl
@[simp] theorem State.onWeir_keys (s : State) (f : Weir → Weir) : (s.onWeir f).keys = s.keys := rfl
@[simp] theorem State.onWeir_mbx (s : State) (f : Weir → Weir) : (s.onWeir f).mbx = s.mbx := rfl

/-! ### `onCtxs` -/

@[simp] theorem State.onCtxs_pending (s : State) (f : SMap Ctx → SMap Ctx) : (s.onCtxs f).pending = s.pending := rfl
@[simp] theorem State.onCtxs_free (s : State) (f : SMap Ctx → SMap Ctx) : (s.onCtxs f).free = s.free := rfl
@[simp] theorem State.onCtxs_boot (s : State) (f : SMap Ctx → SMap Ctx) : (s.onCtxs f).boot = s.boot := rfl
@[simp] theorem State.onCtxs_straps (s : State) (f : SMap Ctx → SMap Ctx) : (s.onCtxs f).straps = s.straps := rfl
@[simp] theorem State.onCtxs_fatal (s : State) (f : SMap Ctx → SMap Ctx) : (s.onCtxs f).fatal = s.fatal := rfl
@[simp] theorem State.onCtxs_img (s : State) (f : SMap Ctx → SMap Ctx) : (s.onCtxs f).img = s.img := rfl
@[simp] theorem State.onCtxs_arr (s : State) (f : SMap Ctx → SMap Ctx) : (s.onCtxs f).arr = s.arr := rfl
@[simp] theorem State.onCtxs_stripes (s : State) (f : SMap Ctx → SMap Ctx) : (s.onCtxs f).stripes = s.stripes := rfl
@[simp] theorem State.onCtxs_upsets (s : State) (f : SMap Ctx → SMap Ctx) : (s.onCtxs f).upsets = s.upsets := rfl
@[simp] theorem State.onCtxs_cfl (s : State) (f : SMap Ctx → SMap Ctx) : (s.onCtxs f).cfl = s.cfl := rfl
@[simp] theorem State.onCtxs_weir (s : State) (f : SMap Ctx → SMap Ctx) : (s.onCtxs f).weir = s.weir := rfl
@[simp] theorem State.onCtxs_ctxs (s : State) (f : SMap Ctx → SMap Ctx) : (s.onCtxs f).ctxs = f s.ctxs := rfl
@[simp] theorem State.onCtxs_grps (s : State) (f : SMap Ctx → SMap Ctx) : (s.onCtxs f).grps = s.grps := rfl
@[simp] theorem State.onCtxs_ports (s : State) (f : SMap Ctx → SMap Ctx) : (s.onCtxs f).ports = s.ports := rfl
@[simp] theorem State.onCtxs_slcs (s : State) (f : SMap Ctx → SMap Ctx) : (s.onCtxs f).slcs = s.slcs := rfl
@[simp] theorem State.onCtxs_slog (s : State) (f : SMap Ctx → SMap Ctx) : (s.onCtxs f).slog = s.slog := rfl
@[simp] theorem State.onCtxs_tb (s : State) (f : SMap Ctx → SMap Ctx) : (s.onCtxs f).tb = s.tb := rfl
@[simp] theorem State.onCtxs_lanes (s : State) (f : SMap Ctx → SMap Ctx) : (s.onCtxs f).lanes = s.lanes := rfl
@[simp] theorem State.onCtxs_lcnts (s : State) (f : SMap Ctx → SMap Ctx) : (s.onCtxs f).lcnts = s.lcnts := rfl
@[simp] theorem State.onCtxs_lports (s : State) (f : SMap Ctx → SMap Ctx) : (s.onCtxs f).lports = s.lports := rfl
@[simp] theorem State.onCtxs_lauth (s : State) (f : SMap Ctx → SMap Ctx) : (s.onCtxs f).lauth = s.lauth := rfl
@[simp] theorem State.onCtxs_cas (s : State) (f : SMap Ctx → SMap Ctx) : (s.onCtxs f).cas = s.cas := rfl
@[simp] theorem State.onCtxs_lev (s : State) (f : SMap Ctx → SMap Ctx) : (s.onCtxs f).lev = s.lev := rfl
@[simp] theorem State.onCtxs_pwr (s : State) (f : SMap Ctx → SMap Ctx) : (s.onCtxs f).pwr = s.pwr := rfl
@[simp] theorem State.onCtxs_reg (s : State) (f : SMap Ctx → SMap Ctx) : (s.onCtxs f).reg = s.reg := rfl
@[simp] theorem State.onCtxs_mem (s : State) (f : SMap Ctx → SMap Ctx) : (s.onCtxs f).mem = s.mem := rfl
@[simp] theorem State.onCtxs_saf (s : State) (f : SMap Ctx → SMap Ctx) : (s.onCtxs f).saf = s.saf := rfl
@[simp] theorem State.onCtxs_trace (s : State) (f : SMap Ctx → SMap Ctx) : (s.onCtxs f).trace = s.trace := rfl
@[simp] theorem State.onCtxs_tap (s : State) (f : SMap Ctx → SMap Ctx) : (s.onCtxs f).tap = s.tap := rfl
@[simp] theorem State.onCtxs_keys (s : State) (f : SMap Ctx → SMap Ctx) : (s.onCtxs f).keys = s.keys := rfl
@[simp] theorem State.onCtxs_mbx (s : State) (f : SMap Ctx → SMap Ctx) : (s.onCtxs f).mbx = s.mbx := rfl

/-! ### `onGrps` -/

@[simp] theorem State.onGrps_pending (s : State) (f : SMap Grp → SMap Grp) : (s.onGrps f).pending = s.pending := rfl
@[simp] theorem State.onGrps_free (s : State) (f : SMap Grp → SMap Grp) : (s.onGrps f).free = s.free := rfl
@[simp] theorem State.onGrps_boot (s : State) (f : SMap Grp → SMap Grp) : (s.onGrps f).boot = s.boot := rfl
@[simp] theorem State.onGrps_straps (s : State) (f : SMap Grp → SMap Grp) : (s.onGrps f).straps = s.straps := rfl
@[simp] theorem State.onGrps_fatal (s : State) (f : SMap Grp → SMap Grp) : (s.onGrps f).fatal = s.fatal := rfl
@[simp] theorem State.onGrps_img (s : State) (f : SMap Grp → SMap Grp) : (s.onGrps f).img = s.img := rfl
@[simp] theorem State.onGrps_arr (s : State) (f : SMap Grp → SMap Grp) : (s.onGrps f).arr = s.arr := rfl
@[simp] theorem State.onGrps_stripes (s : State) (f : SMap Grp → SMap Grp) : (s.onGrps f).stripes = s.stripes := rfl
@[simp] theorem State.onGrps_upsets (s : State) (f : SMap Grp → SMap Grp) : (s.onGrps f).upsets = s.upsets := rfl
@[simp] theorem State.onGrps_cfl (s : State) (f : SMap Grp → SMap Grp) : (s.onGrps f).cfl = s.cfl := rfl
@[simp] theorem State.onGrps_weir (s : State) (f : SMap Grp → SMap Grp) : (s.onGrps f).weir = s.weir := rfl
@[simp] theorem State.onGrps_ctxs (s : State) (f : SMap Grp → SMap Grp) : (s.onGrps f).ctxs = s.ctxs := rfl
@[simp] theorem State.onGrps_grps (s : State) (f : SMap Grp → SMap Grp) : (s.onGrps f).grps = f s.grps := rfl
@[simp] theorem State.onGrps_ports (s : State) (f : SMap Grp → SMap Grp) : (s.onGrps f).ports = s.ports := rfl
@[simp] theorem State.onGrps_slcs (s : State) (f : SMap Grp → SMap Grp) : (s.onGrps f).slcs = s.slcs := rfl
@[simp] theorem State.onGrps_slog (s : State) (f : SMap Grp → SMap Grp) : (s.onGrps f).slog = s.slog := rfl
@[simp] theorem State.onGrps_tb (s : State) (f : SMap Grp → SMap Grp) : (s.onGrps f).tb = s.tb := rfl
@[simp] theorem State.onGrps_lanes (s : State) (f : SMap Grp → SMap Grp) : (s.onGrps f).lanes = s.lanes := rfl
@[simp] theorem State.onGrps_lcnts (s : State) (f : SMap Grp → SMap Grp) : (s.onGrps f).lcnts = s.lcnts := rfl
@[simp] theorem State.onGrps_lports (s : State) (f : SMap Grp → SMap Grp) : (s.onGrps f).lports = s.lports := rfl
@[simp] theorem State.onGrps_lauth (s : State) (f : SMap Grp → SMap Grp) : (s.onGrps f).lauth = s.lauth := rfl
@[simp] theorem State.onGrps_cas (s : State) (f : SMap Grp → SMap Grp) : (s.onGrps f).cas = s.cas := rfl
@[simp] theorem State.onGrps_lev (s : State) (f : SMap Grp → SMap Grp) : (s.onGrps f).lev = s.lev := rfl
@[simp] theorem State.onGrps_pwr (s : State) (f : SMap Grp → SMap Grp) : (s.onGrps f).pwr = s.pwr := rfl
@[simp] theorem State.onGrps_reg (s : State) (f : SMap Grp → SMap Grp) : (s.onGrps f).reg = s.reg := rfl
@[simp] theorem State.onGrps_mem (s : State) (f : SMap Grp → SMap Grp) : (s.onGrps f).mem = s.mem := rfl
@[simp] theorem State.onGrps_saf (s : State) (f : SMap Grp → SMap Grp) : (s.onGrps f).saf = s.saf := rfl
@[simp] theorem State.onGrps_trace (s : State) (f : SMap Grp → SMap Grp) : (s.onGrps f).trace = s.trace := rfl
@[simp] theorem State.onGrps_tap (s : State) (f : SMap Grp → SMap Grp) : (s.onGrps f).tap = s.tap := rfl
@[simp] theorem State.onGrps_keys (s : State) (f : SMap Grp → SMap Grp) : (s.onGrps f).keys = s.keys := rfl
@[simp] theorem State.onGrps_mbx (s : State) (f : SMap Grp → SMap Grp) : (s.onGrps f).mbx = s.mbx := rfl

/-! ### `onPorts` -/

@[simp] theorem State.onPorts_pending (s : State) (f : SMap Port → SMap Port) : (s.onPorts f).pending = s.pending := rfl
@[simp] theorem State.onPorts_free (s : State) (f : SMap Port → SMap Port) : (s.onPorts f).free = s.free := rfl
@[simp] theorem State.onPorts_boot (s : State) (f : SMap Port → SMap Port) : (s.onPorts f).boot = s.boot := rfl
@[simp] theorem State.onPorts_straps (s : State) (f : SMap Port → SMap Port) : (s.onPorts f).straps = s.straps := rfl
@[simp] theorem State.onPorts_fatal (s : State) (f : SMap Port → SMap Port) : (s.onPorts f).fatal = s.fatal := rfl
@[simp] theorem State.onPorts_img (s : State) (f : SMap Port → SMap Port) : (s.onPorts f).img = s.img := rfl
@[simp] theorem State.onPorts_arr (s : State) (f : SMap Port → SMap Port) : (s.onPorts f).arr = s.arr := rfl
@[simp] theorem State.onPorts_stripes (s : State) (f : SMap Port → SMap Port) : (s.onPorts f).stripes = s.stripes := rfl
@[simp] theorem State.onPorts_upsets (s : State) (f : SMap Port → SMap Port) : (s.onPorts f).upsets = s.upsets := rfl
@[simp] theorem State.onPorts_cfl (s : State) (f : SMap Port → SMap Port) : (s.onPorts f).cfl = s.cfl := rfl
@[simp] theorem State.onPorts_weir (s : State) (f : SMap Port → SMap Port) : (s.onPorts f).weir = s.weir := rfl
@[simp] theorem State.onPorts_ctxs (s : State) (f : SMap Port → SMap Port) : (s.onPorts f).ctxs = s.ctxs := rfl
@[simp] theorem State.onPorts_grps (s : State) (f : SMap Port → SMap Port) : (s.onPorts f).grps = s.grps := rfl
@[simp] theorem State.onPorts_ports (s : State) (f : SMap Port → SMap Port) : (s.onPorts f).ports = f s.ports := rfl
@[simp] theorem State.onPorts_slcs (s : State) (f : SMap Port → SMap Port) : (s.onPorts f).slcs = s.slcs := rfl
@[simp] theorem State.onPorts_slog (s : State) (f : SMap Port → SMap Port) : (s.onPorts f).slog = s.slog := rfl
@[simp] theorem State.onPorts_tb (s : State) (f : SMap Port → SMap Port) : (s.onPorts f).tb = s.tb := rfl
@[simp] theorem State.onPorts_lanes (s : State) (f : SMap Port → SMap Port) : (s.onPorts f).lanes = s.lanes := rfl
@[simp] theorem State.onPorts_lcnts (s : State) (f : SMap Port → SMap Port) : (s.onPorts f).lcnts = s.lcnts := rfl
@[simp] theorem State.onPorts_lports (s : State) (f : SMap Port → SMap Port) : (s.onPorts f).lports = s.lports := rfl
@[simp] theorem State.onPorts_lauth (s : State) (f : SMap Port → SMap Port) : (s.onPorts f).lauth = s.lauth := rfl
@[simp] theorem State.onPorts_cas (s : State) (f : SMap Port → SMap Port) : (s.onPorts f).cas = s.cas := rfl
@[simp] theorem State.onPorts_lev (s : State) (f : SMap Port → SMap Port) : (s.onPorts f).lev = s.lev := rfl
@[simp] theorem State.onPorts_pwr (s : State) (f : SMap Port → SMap Port) : (s.onPorts f).pwr = s.pwr := rfl
@[simp] theorem State.onPorts_reg (s : State) (f : SMap Port → SMap Port) : (s.onPorts f).reg = s.reg := rfl
@[simp] theorem State.onPorts_mem (s : State) (f : SMap Port → SMap Port) : (s.onPorts f).mem = s.mem := rfl
@[simp] theorem State.onPorts_saf (s : State) (f : SMap Port → SMap Port) : (s.onPorts f).saf = s.saf := rfl
@[simp] theorem State.onPorts_trace (s : State) (f : SMap Port → SMap Port) : (s.onPorts f).trace = s.trace := rfl
@[simp] theorem State.onPorts_tap (s : State) (f : SMap Port → SMap Port) : (s.onPorts f).tap = s.tap := rfl
@[simp] theorem State.onPorts_keys (s : State) (f : SMap Port → SMap Port) : (s.onPorts f).keys = s.keys := rfl
@[simp] theorem State.onPorts_mbx (s : State) (f : SMap Port → SMap Port) : (s.onPorts f).mbx = s.mbx := rfl

/-! ### `onSlcs` -/

@[simp] theorem State.onSlcs_pending (s : State) (f : SMap Slc → SMap Slc) : (s.onSlcs f).pending = s.pending := rfl
@[simp] theorem State.onSlcs_free (s : State) (f : SMap Slc → SMap Slc) : (s.onSlcs f).free = s.free := rfl
@[simp] theorem State.onSlcs_boot (s : State) (f : SMap Slc → SMap Slc) : (s.onSlcs f).boot = s.boot := rfl
@[simp] theorem State.onSlcs_straps (s : State) (f : SMap Slc → SMap Slc) : (s.onSlcs f).straps = s.straps := rfl
@[simp] theorem State.onSlcs_fatal (s : State) (f : SMap Slc → SMap Slc) : (s.onSlcs f).fatal = s.fatal := rfl
@[simp] theorem State.onSlcs_img (s : State) (f : SMap Slc → SMap Slc) : (s.onSlcs f).img = s.img := rfl
@[simp] theorem State.onSlcs_arr (s : State) (f : SMap Slc → SMap Slc) : (s.onSlcs f).arr = s.arr := rfl
@[simp] theorem State.onSlcs_stripes (s : State) (f : SMap Slc → SMap Slc) : (s.onSlcs f).stripes = s.stripes := rfl
@[simp] theorem State.onSlcs_upsets (s : State) (f : SMap Slc → SMap Slc) : (s.onSlcs f).upsets = s.upsets := rfl
@[simp] theorem State.onSlcs_cfl (s : State) (f : SMap Slc → SMap Slc) : (s.onSlcs f).cfl = s.cfl := rfl
@[simp] theorem State.onSlcs_weir (s : State) (f : SMap Slc → SMap Slc) : (s.onSlcs f).weir = s.weir := rfl
@[simp] theorem State.onSlcs_ctxs (s : State) (f : SMap Slc → SMap Slc) : (s.onSlcs f).ctxs = s.ctxs := rfl
@[simp] theorem State.onSlcs_grps (s : State) (f : SMap Slc → SMap Slc) : (s.onSlcs f).grps = s.grps := rfl
@[simp] theorem State.onSlcs_ports (s : State) (f : SMap Slc → SMap Slc) : (s.onSlcs f).ports = s.ports := rfl
@[simp] theorem State.onSlcs_slcs (s : State) (f : SMap Slc → SMap Slc) : (s.onSlcs f).slcs = f s.slcs := rfl
@[simp] theorem State.onSlcs_slog (s : State) (f : SMap Slc → SMap Slc) : (s.onSlcs f).slog = s.slog := rfl
@[simp] theorem State.onSlcs_tb (s : State) (f : SMap Slc → SMap Slc) : (s.onSlcs f).tb = s.tb := rfl
@[simp] theorem State.onSlcs_lanes (s : State) (f : SMap Slc → SMap Slc) : (s.onSlcs f).lanes = s.lanes := rfl
@[simp] theorem State.onSlcs_lcnts (s : State) (f : SMap Slc → SMap Slc) : (s.onSlcs f).lcnts = s.lcnts := rfl
@[simp] theorem State.onSlcs_lports (s : State) (f : SMap Slc → SMap Slc) : (s.onSlcs f).lports = s.lports := rfl
@[simp] theorem State.onSlcs_lauth (s : State) (f : SMap Slc → SMap Slc) : (s.onSlcs f).lauth = s.lauth := rfl
@[simp] theorem State.onSlcs_cas (s : State) (f : SMap Slc → SMap Slc) : (s.onSlcs f).cas = s.cas := rfl
@[simp] theorem State.onSlcs_lev (s : State) (f : SMap Slc → SMap Slc) : (s.onSlcs f).lev = s.lev := rfl
@[simp] theorem State.onSlcs_pwr (s : State) (f : SMap Slc → SMap Slc) : (s.onSlcs f).pwr = s.pwr := rfl
@[simp] theorem State.onSlcs_reg (s : State) (f : SMap Slc → SMap Slc) : (s.onSlcs f).reg = s.reg := rfl
@[simp] theorem State.onSlcs_mem (s : State) (f : SMap Slc → SMap Slc) : (s.onSlcs f).mem = s.mem := rfl
@[simp] theorem State.onSlcs_saf (s : State) (f : SMap Slc → SMap Slc) : (s.onSlcs f).saf = s.saf := rfl
@[simp] theorem State.onSlcs_trace (s : State) (f : SMap Slc → SMap Slc) : (s.onSlcs f).trace = s.trace := rfl
@[simp] theorem State.onSlcs_tap (s : State) (f : SMap Slc → SMap Slc) : (s.onSlcs f).tap = s.tap := rfl
@[simp] theorem State.onSlcs_keys (s : State) (f : SMap Slc → SMap Slc) : (s.onSlcs f).keys = s.keys := rfl
@[simp] theorem State.onSlcs_mbx (s : State) (f : SMap Slc → SMap Slc) : (s.onSlcs f).mbx = s.mbx := rfl

/-! ### `onSlog` -/

@[simp] theorem State.onSlog_pending (s : State) (f : List LogRec → List LogRec) : (s.onSlog f).pending = s.pending := rfl
@[simp] theorem State.onSlog_free (s : State) (f : List LogRec → List LogRec) : (s.onSlog f).free = s.free := rfl
@[simp] theorem State.onSlog_boot (s : State) (f : List LogRec → List LogRec) : (s.onSlog f).boot = s.boot := rfl
@[simp] theorem State.onSlog_straps (s : State) (f : List LogRec → List LogRec) : (s.onSlog f).straps = s.straps := rfl
@[simp] theorem State.onSlog_fatal (s : State) (f : List LogRec → List LogRec) : (s.onSlog f).fatal = s.fatal := rfl
@[simp] theorem State.onSlog_img (s : State) (f : List LogRec → List LogRec) : (s.onSlog f).img = s.img := rfl
@[simp] theorem State.onSlog_arr (s : State) (f : List LogRec → List LogRec) : (s.onSlog f).arr = s.arr := rfl
@[simp] theorem State.onSlog_stripes (s : State) (f : List LogRec → List LogRec) : (s.onSlog f).stripes = s.stripes := rfl
@[simp] theorem State.onSlog_upsets (s : State) (f : List LogRec → List LogRec) : (s.onSlog f).upsets = s.upsets := rfl
@[simp] theorem State.onSlog_cfl (s : State) (f : List LogRec → List LogRec) : (s.onSlog f).cfl = s.cfl := rfl
@[simp] theorem State.onSlog_weir (s : State) (f : List LogRec → List LogRec) : (s.onSlog f).weir = s.weir := rfl
@[simp] theorem State.onSlog_ctxs (s : State) (f : List LogRec → List LogRec) : (s.onSlog f).ctxs = s.ctxs := rfl
@[simp] theorem State.onSlog_grps (s : State) (f : List LogRec → List LogRec) : (s.onSlog f).grps = s.grps := rfl
@[simp] theorem State.onSlog_ports (s : State) (f : List LogRec → List LogRec) : (s.onSlog f).ports = s.ports := rfl
@[simp] theorem State.onSlog_slcs (s : State) (f : List LogRec → List LogRec) : (s.onSlog f).slcs = s.slcs := rfl
@[simp] theorem State.onSlog_slog (s : State) (f : List LogRec → List LogRec) : (s.onSlog f).slog = f s.slog := rfl
@[simp] theorem State.onSlog_tb (s : State) (f : List LogRec → List LogRec) : (s.onSlog f).tb = s.tb := rfl
@[simp] theorem State.onSlog_lanes (s : State) (f : List LogRec → List LogRec) : (s.onSlog f).lanes = s.lanes := rfl
@[simp] theorem State.onSlog_lcnts (s : State) (f : List LogRec → List LogRec) : (s.onSlog f).lcnts = s.lcnts := rfl
@[simp] theorem State.onSlog_lports (s : State) (f : List LogRec → List LogRec) : (s.onSlog f).lports = s.lports := rfl
@[simp] theorem State.onSlog_lauth (s : State) (f : List LogRec → List LogRec) : (s.onSlog f).lauth = s.lauth := rfl
@[simp] theorem State.onSlog_cas (s : State) (f : List LogRec → List LogRec) : (s.onSlog f).cas = s.cas := rfl
@[simp] theorem State.onSlog_lev (s : State) (f : List LogRec → List LogRec) : (s.onSlog f).lev = s.lev := rfl
@[simp] theorem State.onSlog_pwr (s : State) (f : List LogRec → List LogRec) : (s.onSlog f).pwr = s.pwr := rfl
@[simp] theorem State.onSlog_reg (s : State) (f : List LogRec → List LogRec) : (s.onSlog f).reg = s.reg := rfl
@[simp] theorem State.onSlog_mem (s : State) (f : List LogRec → List LogRec) : (s.onSlog f).mem = s.mem := rfl
@[simp] theorem State.onSlog_saf (s : State) (f : List LogRec → List LogRec) : (s.onSlog f).saf = s.saf := rfl
@[simp] theorem State.onSlog_trace (s : State) (f : List LogRec → List LogRec) : (s.onSlog f).trace = s.trace := rfl
@[simp] theorem State.onSlog_tap (s : State) (f : List LogRec → List LogRec) : (s.onSlog f).tap = s.tap := rfl
@[simp] theorem State.onSlog_keys (s : State) (f : List LogRec → List LogRec) : (s.onSlog f).keys = s.keys := rfl
@[simp] theorem State.onSlog_mbx (s : State) (f : List LogRec → List LogRec) : (s.onSlog f).mbx = s.mbx := rfl

/-! ### `onTb` -/

@[simp] theorem State.onTb_pending (s : State) (f : Tb → Tb) : (s.onTb f).pending = s.pending := rfl
@[simp] theorem State.onTb_free (s : State) (f : Tb → Tb) : (s.onTb f).free = s.free := rfl
@[simp] theorem State.onTb_boot (s : State) (f : Tb → Tb) : (s.onTb f).boot = s.boot := rfl
@[simp] theorem State.onTb_straps (s : State) (f : Tb → Tb) : (s.onTb f).straps = s.straps := rfl
@[simp] theorem State.onTb_fatal (s : State) (f : Tb → Tb) : (s.onTb f).fatal = s.fatal := rfl
@[simp] theorem State.onTb_img (s : State) (f : Tb → Tb) : (s.onTb f).img = s.img := rfl
@[simp] theorem State.onTb_arr (s : State) (f : Tb → Tb) : (s.onTb f).arr = s.arr := rfl
@[simp] theorem State.onTb_stripes (s : State) (f : Tb → Tb) : (s.onTb f).stripes = s.stripes := rfl
@[simp] theorem State.onTb_upsets (s : State) (f : Tb → Tb) : (s.onTb f).upsets = s.upsets := rfl
@[simp] theorem State.onTb_cfl (s : State) (f : Tb → Tb) : (s.onTb f).cfl = s.cfl := rfl
@[simp] theorem State.onTb_weir (s : State) (f : Tb → Tb) : (s.onTb f).weir = s.weir := rfl
@[simp] theorem State.onTb_ctxs (s : State) (f : Tb → Tb) : (s.onTb f).ctxs = s.ctxs := rfl
@[simp] theorem State.onTb_grps (s : State) (f : Tb → Tb) : (s.onTb f).grps = s.grps := rfl
@[simp] theorem State.onTb_ports (s : State) (f : Tb → Tb) : (s.onTb f).ports = s.ports := rfl
@[simp] theorem State.onTb_slcs (s : State) (f : Tb → Tb) : (s.onTb f).slcs = s.slcs := rfl
@[simp] theorem State.onTb_slog (s : State) (f : Tb → Tb) : (s.onTb f).slog = s.slog := rfl
@[simp] theorem State.onTb_tb (s : State) (f : Tb → Tb) : (s.onTb f).tb = f s.tb := rfl
@[simp] theorem State.onTb_lanes (s : State) (f : Tb → Tb) : (s.onTb f).lanes = s.lanes := rfl
@[simp] theorem State.onTb_lcnts (s : State) (f : Tb → Tb) : (s.onTb f).lcnts = s.lcnts := rfl
@[simp] theorem State.onTb_lports (s : State) (f : Tb → Tb) : (s.onTb f).lports = s.lports := rfl
@[simp] theorem State.onTb_lauth (s : State) (f : Tb → Tb) : (s.onTb f).lauth = s.lauth := rfl
@[simp] theorem State.onTb_cas (s : State) (f : Tb → Tb) : (s.onTb f).cas = s.cas := rfl
@[simp] theorem State.onTb_lev (s : State) (f : Tb → Tb) : (s.onTb f).lev = s.lev := rfl
@[simp] theorem State.onTb_pwr (s : State) (f : Tb → Tb) : (s.onTb f).pwr = s.pwr := rfl
@[simp] theorem State.onTb_reg (s : State) (f : Tb → Tb) : (s.onTb f).reg = s.reg := rfl
@[simp] theorem State.onTb_mem (s : State) (f : Tb → Tb) : (s.onTb f).mem = s.mem := rfl
@[simp] theorem State.onTb_saf (s : State) (f : Tb → Tb) : (s.onTb f).saf = s.saf := rfl
@[simp] theorem State.onTb_trace (s : State) (f : Tb → Tb) : (s.onTb f).trace = s.trace := rfl
@[simp] theorem State.onTb_tap (s : State) (f : Tb → Tb) : (s.onTb f).tap = s.tap := rfl
@[simp] theorem State.onTb_keys (s : State) (f : Tb → Tb) : (s.onTb f).keys = s.keys := rfl
@[simp] theorem State.onTb_mbx (s : State) (f : Tb → Tb) : (s.onTb f).mbx = s.mbx := rfl

/-! ### `onLanes` -/

@[simp] theorem State.onLanes_pending (s : State) (f : SMap Lane → SMap Lane) : (s.onLanes f).pending = s.pending := rfl
@[simp] theorem State.onLanes_free (s : State) (f : SMap Lane → SMap Lane) : (s.onLanes f).free = s.free := rfl
@[simp] theorem State.onLanes_boot (s : State) (f : SMap Lane → SMap Lane) : (s.onLanes f).boot = s.boot := rfl
@[simp] theorem State.onLanes_straps (s : State) (f : SMap Lane → SMap Lane) : (s.onLanes f).straps = s.straps := rfl
@[simp] theorem State.onLanes_fatal (s : State) (f : SMap Lane → SMap Lane) : (s.onLanes f).fatal = s.fatal := rfl
@[simp] theorem State.onLanes_img (s : State) (f : SMap Lane → SMap Lane) : (s.onLanes f).img = s.img := rfl
@[simp] theorem State.onLanes_arr (s : State) (f : SMap Lane → SMap Lane) : (s.onLanes f).arr = s.arr := rfl
@[simp] theorem State.onLanes_stripes (s : State) (f : SMap Lane → SMap Lane) : (s.onLanes f).stripes = s.stripes := rfl
@[simp] theorem State.onLanes_upsets (s : State) (f : SMap Lane → SMap Lane) : (s.onLanes f).upsets = s.upsets := rfl
@[simp] theorem State.onLanes_cfl (s : State) (f : SMap Lane → SMap Lane) : (s.onLanes f).cfl = s.cfl := rfl
@[simp] theorem State.onLanes_weir (s : State) (f : SMap Lane → SMap Lane) : (s.onLanes f).weir = s.weir := rfl
@[simp] theorem State.onLanes_ctxs (s : State) (f : SMap Lane → SMap Lane) : (s.onLanes f).ctxs = s.ctxs := rfl
@[simp] theorem State.onLanes_grps (s : State) (f : SMap Lane → SMap Lane) : (s.onLanes f).grps = s.grps := rfl
@[simp] theorem State.onLanes_ports (s : State) (f : SMap Lane → SMap Lane) : (s.onLanes f).ports = s.ports := rfl
@[simp] theorem State.onLanes_slcs (s : State) (f : SMap Lane → SMap Lane) : (s.onLanes f).slcs = s.slcs := rfl
@[simp] theorem State.onLanes_slog (s : State) (f : SMap Lane → SMap Lane) : (s.onLanes f).slog = s.slog := rfl
@[simp] theorem State.onLanes_tb (s : State) (f : SMap Lane → SMap Lane) : (s.onLanes f).tb = s.tb := rfl
@[simp] theorem State.onLanes_lanes (s : State) (f : SMap Lane → SMap Lane) : (s.onLanes f).lanes = f s.lanes := rfl
@[simp] theorem State.onLanes_lcnts (s : State) (f : SMap Lane → SMap Lane) : (s.onLanes f).lcnts = s.lcnts := rfl
@[simp] theorem State.onLanes_lports (s : State) (f : SMap Lane → SMap Lane) : (s.onLanes f).lports = s.lports := rfl
@[simp] theorem State.onLanes_lauth (s : State) (f : SMap Lane → SMap Lane) : (s.onLanes f).lauth = s.lauth := rfl
@[simp] theorem State.onLanes_cas (s : State) (f : SMap Lane → SMap Lane) : (s.onLanes f).cas = s.cas := rfl
@[simp] theorem State.onLanes_lev (s : State) (f : SMap Lane → SMap Lane) : (s.onLanes f).lev = s.lev := rfl
@[simp] theorem State.onLanes_pwr (s : State) (f : SMap Lane → SMap Lane) : (s.onLanes f).pwr = s.pwr := rfl
@[simp] theorem State.onLanes_reg (s : State) (f : SMap Lane → SMap Lane) : (s.onLanes f).reg = s.reg := rfl
@[simp] theorem State.onLanes_mem (s : State) (f : SMap Lane → SMap Lane) : (s.onLanes f).mem = s.mem := rfl
@[simp] theorem State.onLanes_saf (s : State) (f : SMap Lane → SMap Lane) : (s.onLanes f).saf = s.saf := rfl
@[simp] theorem State.onLanes_trace (s : State) (f : SMap Lane → SMap Lane) : (s.onLanes f).trace = s.trace := rfl
@[simp] theorem State.onLanes_tap (s : State) (f : SMap Lane → SMap Lane) : (s.onLanes f).tap = s.tap := rfl
@[simp] theorem State.onLanes_keys (s : State) (f : SMap Lane → SMap Lane) : (s.onLanes f).keys = s.keys := rfl
@[simp] theorem State.onLanes_mbx (s : State) (f : SMap Lane → SMap Lane) : (s.onLanes f).mbx = s.mbx := rfl

/-! ### `onLcnts` -/

@[simp] theorem State.onLcnts_pending (s : State) (f : SMap LaneCnt → SMap LaneCnt) : (s.onLcnts f).pending = s.pending := rfl
@[simp] theorem State.onLcnts_free (s : State) (f : SMap LaneCnt → SMap LaneCnt) : (s.onLcnts f).free = s.free := rfl
@[simp] theorem State.onLcnts_boot (s : State) (f : SMap LaneCnt → SMap LaneCnt) : (s.onLcnts f).boot = s.boot := rfl
@[simp] theorem State.onLcnts_straps (s : State) (f : SMap LaneCnt → SMap LaneCnt) : (s.onLcnts f).straps = s.straps := rfl
@[simp] theorem State.onLcnts_fatal (s : State) (f : SMap LaneCnt → SMap LaneCnt) : (s.onLcnts f).fatal = s.fatal := rfl
@[simp] theorem State.onLcnts_img (s : State) (f : SMap LaneCnt → SMap LaneCnt) : (s.onLcnts f).img = s.img := rfl
@[simp] theorem State.onLcnts_arr (s : State) (f : SMap LaneCnt → SMap LaneCnt) : (s.onLcnts f).arr = s.arr := rfl
@[simp] theorem State.onLcnts_stripes (s : State) (f : SMap LaneCnt → SMap LaneCnt) : (s.onLcnts f).stripes = s.stripes := rfl
@[simp] theorem State.onLcnts_upsets (s : State) (f : SMap LaneCnt → SMap LaneCnt) : (s.onLcnts f).upsets = s.upsets := rfl
@[simp] theorem State.onLcnts_cfl (s : State) (f : SMap LaneCnt → SMap LaneCnt) : (s.onLcnts f).cfl = s.cfl := rfl
@[simp] theorem State.onLcnts_weir (s : State) (f : SMap LaneCnt → SMap LaneCnt) : (s.onLcnts f).weir = s.weir := rfl
@[simp] theorem State.onLcnts_ctxs (s : State) (f : SMap LaneCnt → SMap LaneCnt) : (s.onLcnts f).ctxs = s.ctxs := rfl
@[simp] theorem State.onLcnts_grps (s : State) (f : SMap LaneCnt → SMap LaneCnt) : (s.onLcnts f).grps = s.grps := rfl
@[simp] theorem State.onLcnts_ports (s : State) (f : SMap LaneCnt → SMap LaneCnt) : (s.onLcnts f).ports = s.ports := rfl
@[simp] theorem State.onLcnts_slcs (s : State) (f : SMap LaneCnt → SMap LaneCnt) : (s.onLcnts f).slcs = s.slcs := rfl
@[simp] theorem State.onLcnts_slog (s : State) (f : SMap LaneCnt → SMap LaneCnt) : (s.onLcnts f).slog = s.slog := rfl
@[simp] theorem State.onLcnts_tb (s : State) (f : SMap LaneCnt → SMap LaneCnt) : (s.onLcnts f).tb = s.tb := rfl
@[simp] theorem State.onLcnts_lanes (s : State) (f : SMap LaneCnt → SMap LaneCnt) : (s.onLcnts f).lanes = s.lanes := rfl
@[simp] theorem State.onLcnts_lcnts (s : State) (f : SMap LaneCnt → SMap LaneCnt) : (s.onLcnts f).lcnts = f s.lcnts := rfl
@[simp] theorem State.onLcnts_lports (s : State) (f : SMap LaneCnt → SMap LaneCnt) : (s.onLcnts f).lports = s.lports := rfl
@[simp] theorem State.onLcnts_lauth (s : State) (f : SMap LaneCnt → SMap LaneCnt) : (s.onLcnts f).lauth = s.lauth := rfl
@[simp] theorem State.onLcnts_cas (s : State) (f : SMap LaneCnt → SMap LaneCnt) : (s.onLcnts f).cas = s.cas := rfl
@[simp] theorem State.onLcnts_lev (s : State) (f : SMap LaneCnt → SMap LaneCnt) : (s.onLcnts f).lev = s.lev := rfl
@[simp] theorem State.onLcnts_pwr (s : State) (f : SMap LaneCnt → SMap LaneCnt) : (s.onLcnts f).pwr = s.pwr := rfl
@[simp] theorem State.onLcnts_reg (s : State) (f : SMap LaneCnt → SMap LaneCnt) : (s.onLcnts f).reg = s.reg := rfl
@[simp] theorem State.onLcnts_mem (s : State) (f : SMap LaneCnt → SMap LaneCnt) : (s.onLcnts f).mem = s.mem := rfl
@[simp] theorem State.onLcnts_saf (s : State) (f : SMap LaneCnt → SMap LaneCnt) : (s.onLcnts f).saf = s.saf := rfl
@[simp] theorem State.onLcnts_trace (s : State) (f : SMap LaneCnt → SMap LaneCnt) : (s.onLcnts f).trace = s.trace := rfl
@[simp] theorem State.onLcnts_tap (s : State) (f : SMap LaneCnt → SMap LaneCnt) : (s.onLcnts f).tap = s.tap := rfl
@[simp] theorem State.onLcnts_keys (s : State) (f : SMap LaneCnt → SMap LaneCnt) : (s.onLcnts f).keys = s.keys := rfl
@[simp] theorem State.onLcnts_mbx (s : State) (f : SMap LaneCnt → SMap LaneCnt) : (s.onLcnts f).mbx = s.mbx := rfl

/-! ### `onLports` -/

@[simp] theorem State.onLports_pending (s : State) (f : SMap LPort → SMap LPort) : (s.onLports f).pending = s.pending := rfl
@[simp] theorem State.onLports_free (s : State) (f : SMap LPort → SMap LPort) : (s.onLports f).free = s.free := rfl
@[simp] theorem State.onLports_boot (s : State) (f : SMap LPort → SMap LPort) : (s.onLports f).boot = s.boot := rfl
@[simp] theorem State.onLports_straps (s : State) (f : SMap LPort → SMap LPort) : (s.onLports f).straps = s.straps := rfl
@[simp] theorem State.onLports_fatal (s : State) (f : SMap LPort → SMap LPort) : (s.onLports f).fatal = s.fatal := rfl
@[simp] theorem State.onLports_img (s : State) (f : SMap LPort → SMap LPort) : (s.onLports f).img = s.img := rfl
@[simp] theorem State.onLports_arr (s : State) (f : SMap LPort → SMap LPort) : (s.onLports f).arr = s.arr := rfl
@[simp] theorem State.onLports_stripes (s : State) (f : SMap LPort → SMap LPort) : (s.onLports f).stripes = s.stripes := rfl
@[simp] theorem State.onLports_upsets (s : State) (f : SMap LPort → SMap LPort) : (s.onLports f).upsets = s.upsets := rfl
@[simp] theorem State.onLports_cfl (s : State) (f : SMap LPort → SMap LPort) : (s.onLports f).cfl = s.cfl := rfl
@[simp] theorem State.onLports_weir (s : State) (f : SMap LPort → SMap LPort) : (s.onLports f).weir = s.weir := rfl
@[simp] theorem State.onLports_ctxs (s : State) (f : SMap LPort → SMap LPort) : (s.onLports f).ctxs = s.ctxs := rfl
@[simp] theorem State.onLports_grps (s : State) (f : SMap LPort → SMap LPort) : (s.onLports f).grps = s.grps := rfl
@[simp] theorem State.onLports_ports (s : State) (f : SMap LPort → SMap LPort) : (s.onLports f).ports = s.ports := rfl
@[simp] theorem State.onLports_slcs (s : State) (f : SMap LPort → SMap LPort) : (s.onLports f).slcs = s.slcs := rfl
@[simp] theorem State.onLports_slog (s : State) (f : SMap LPort → SMap LPort) : (s.onLports f).slog = s.slog := rfl
@[simp] theorem State.onLports_tb (s : State) (f : SMap LPort → SMap LPort) : (s.onLports f).tb = s.tb := rfl
@[simp] theorem State.onLports_lanes (s : State) (f : SMap LPort → SMap LPort) : (s.onLports f).lanes = s.lanes := rfl
@[simp] theorem State.onLports_lcnts (s : State) (f : SMap LPort → SMap LPort) : (s.onLports f).lcnts = s.lcnts := rfl
@[simp] theorem State.onLports_lports (s : State) (f : SMap LPort → SMap LPort) : (s.onLports f).lports = f s.lports := rfl
@[simp] theorem State.onLports_lauth (s : State) (f : SMap LPort → SMap LPort) : (s.onLports f).lauth = s.lauth := rfl
@[simp] theorem State.onLports_cas (s : State) (f : SMap LPort → SMap LPort) : (s.onLports f).cas = s.cas := rfl
@[simp] theorem State.onLports_lev (s : State) (f : SMap LPort → SMap LPort) : (s.onLports f).lev = s.lev := rfl
@[simp] theorem State.onLports_pwr (s : State) (f : SMap LPort → SMap LPort) : (s.onLports f).pwr = s.pwr := rfl
@[simp] theorem State.onLports_reg (s : State) (f : SMap LPort → SMap LPort) : (s.onLports f).reg = s.reg := rfl
@[simp] theorem State.onLports_mem (s : State) (f : SMap LPort → SMap LPort) : (s.onLports f).mem = s.mem := rfl
@[simp] theorem State.onLports_saf (s : State) (f : SMap LPort → SMap LPort) : (s.onLports f).saf = s.saf := rfl
@[simp] theorem State.onLports_trace (s : State) (f : SMap LPort → SMap LPort) : (s.onLports f).trace = s.trace := rfl
@[simp] theorem State.onLports_tap (s : State) (f : SMap LPort → SMap LPort) : (s.onLports f).tap = s.tap := rfl
@[simp] theorem State.onLports_keys (s : State) (f : SMap LPort → SMap LPort) : (s.onLports f).keys = s.keys := rfl
@[simp] theorem State.onLports_mbx (s : State) (f : SMap LPort → SMap LPort) : (s.onLports f).mbx = s.mbx := rfl

/-! ### `onLauth` -/

@[simp] theorem State.onLauth_pending (s : State) (f : SMap LAuth → SMap LAuth) : (s.onLauth f).pending = s.pending := rfl
@[simp] theorem State.onLauth_free (s : State) (f : SMap LAuth → SMap LAuth) : (s.onLauth f).free = s.free := rfl
@[simp] theorem State.onLauth_boot (s : State) (f : SMap LAuth → SMap LAuth) : (s.onLauth f).boot = s.boot := rfl
@[simp] theorem State.onLauth_straps (s : State) (f : SMap LAuth → SMap LAuth) : (s.onLauth f).straps = s.straps := rfl
@[simp] theorem State.onLauth_fatal (s : State) (f : SMap LAuth → SMap LAuth) : (s.onLauth f).fatal = s.fatal := rfl
@[simp] theorem State.onLauth_img (s : State) (f : SMap LAuth → SMap LAuth) : (s.onLauth f).img = s.img := rfl
@[simp] theorem State.onLauth_arr (s : State) (f : SMap LAuth → SMap LAuth) : (s.onLauth f).arr = s.arr := rfl
@[simp] theorem State.onLauth_stripes (s : State) (f : SMap LAuth → SMap LAuth) : (s.onLauth f).stripes = s.stripes := rfl
@[simp] theorem State.onLauth_upsets (s : State) (f : SMap LAuth → SMap LAuth) : (s.onLauth f).upsets = s.upsets := rfl
@[simp] theorem State.onLauth_cfl (s : State) (f : SMap LAuth → SMap LAuth) : (s.onLauth f).cfl = s.cfl := rfl
@[simp] theorem State.onLauth_weir (s : State) (f : SMap LAuth → SMap LAuth) : (s.onLauth f).weir = s.weir := rfl
@[simp] theorem State.onLauth_ctxs (s : State) (f : SMap LAuth → SMap LAuth) : (s.onLauth f).ctxs = s.ctxs := rfl
@[simp] theorem State.onLauth_grps (s : State) (f : SMap LAuth → SMap LAuth) : (s.onLauth f).grps = s.grps := rfl
@[simp] theorem State.onLauth_ports (s : State) (f : SMap LAuth → SMap LAuth) : (s.onLauth f).ports = s.ports := rfl
@[simp] theorem State.onLauth_slcs (s : State) (f : SMap LAuth → SMap LAuth) : (s.onLauth f).slcs = s.slcs := rfl
@[simp] theorem State.onLauth_slog (s : State) (f : SMap LAuth → SMap LAuth) : (s.onLauth f).slog = s.slog := rfl
@[simp] theorem State.onLauth_tb (s : State) (f : SMap LAuth → SMap LAuth) : (s.onLauth f).tb = s.tb := rfl
@[simp] theorem State.onLauth_lanes (s : State) (f : SMap LAuth → SMap LAuth) : (s.onLauth f).lanes = s.lanes := rfl
@[simp] theorem State.onLauth_lcnts (s : State) (f : SMap LAuth → SMap LAuth) : (s.onLauth f).lcnts = s.lcnts := rfl
@[simp] theorem State.onLauth_lports (s : State) (f : SMap LAuth → SMap LAuth) : (s.onLauth f).lports = s.lports := rfl
@[simp] theorem State.onLauth_lauth (s : State) (f : SMap LAuth → SMap LAuth) : (s.onLauth f).lauth = f s.lauth := rfl
@[simp] theorem State.onLauth_cas (s : State) (f : SMap LAuth → SMap LAuth) : (s.onLauth f).cas = s.cas := rfl
@[simp] theorem State.onLauth_lev (s : State) (f : SMap LAuth → SMap LAuth) : (s.onLauth f).lev = s.lev := rfl
@[simp] theorem State.onLauth_pwr (s : State) (f : SMap LAuth → SMap LAuth) : (s.onLauth f).pwr = s.pwr := rfl
@[simp] theorem State.onLauth_reg (s : State) (f : SMap LAuth → SMap LAuth) : (s.onLauth f).reg = s.reg := rfl
@[simp] theorem State.onLauth_mem (s : State) (f : SMap LAuth → SMap LAuth) : (s.onLauth f).mem = s.mem := rfl
@[simp] theorem State.onLauth_saf (s : State) (f : SMap LAuth → SMap LAuth) : (s.onLauth f).saf = s.saf := rfl
@[simp] theorem State.onLauth_trace (s : State) (f : SMap LAuth → SMap LAuth) : (s.onLauth f).trace = s.trace := rfl
@[simp] theorem State.onLauth_tap (s : State) (f : SMap LAuth → SMap LAuth) : (s.onLauth f).tap = s.tap := rfl
@[simp] theorem State.onLauth_keys (s : State) (f : SMap LAuth → SMap LAuth) : (s.onLauth f).keys = s.keys := rfl
@[simp] theorem State.onLauth_mbx (s : State) (f : SMap LAuth → SMap LAuth) : (s.onLauth f).mbx = s.mbx := rfl

/-! ### `onCas` -/

@[simp] theorem State.onCas_pending (s : State) (f : Cas → Cas) : (s.onCas f).pending = s.pending := rfl
@[simp] theorem State.onCas_free (s : State) (f : Cas → Cas) : (s.onCas f).free = s.free := rfl
@[simp] theorem State.onCas_boot (s : State) (f : Cas → Cas) : (s.onCas f).boot = s.boot := rfl
@[simp] theorem State.onCas_straps (s : State) (f : Cas → Cas) : (s.onCas f).straps = s.straps := rfl
@[simp] theorem State.onCas_fatal (s : State) (f : Cas → Cas) : (s.onCas f).fatal = s.fatal := rfl
@[simp] theorem State.onCas_img (s : State) (f : Cas → Cas) : (s.onCas f).img = s.img := rfl
@[simp] theorem State.onCas_arr (s : State) (f : Cas → Cas) : (s.onCas f).arr = s.arr := rfl
@[simp] theorem State.onCas_stripes (s : State) (f : Cas → Cas) : (s.onCas f).stripes = s.stripes := rfl
@[simp] theorem State.onCas_upsets (s : State) (f : Cas → Cas) : (s.onCas f).upsets = s.upsets := rfl
@[simp] theorem State.onCas_cfl (s : State) (f : Cas → Cas) : (s.onCas f).cfl = s.cfl := rfl
@[simp] theorem State.onCas_weir (s : State) (f : Cas → Cas) : (s.onCas f).weir = s.weir := rfl
@[simp] theorem State.onCas_ctxs (s : State) (f : Cas → Cas) : (s.onCas f).ctxs = s.ctxs := rfl
@[simp] theorem State.onCas_grps (s : State) (f : Cas → Cas) : (s.onCas f).grps = s.grps := rfl
@[simp] theorem State.onCas_ports (s : State) (f : Cas → Cas) : (s.onCas f).ports = s.ports := rfl
@[simp] theorem State.onCas_slcs (s : State) (f : Cas → Cas) : (s.onCas f).slcs = s.slcs := rfl
@[simp] theorem State.onCas_slog (s : State) (f : Cas → Cas) : (s.onCas f).slog = s.slog := rfl
@[simp] theorem State.onCas_tb (s : State) (f : Cas → Cas) : (s.onCas f).tb = s.tb := rfl
@[simp] theorem State.onCas_lanes (s : State) (f : Cas → Cas) : (s.onCas f).lanes = s.lanes := rfl
@[simp] theorem State.onCas_lcnts (s : State) (f : Cas → Cas) : (s.onCas f).lcnts = s.lcnts := rfl
@[simp] theorem State.onCas_lports (s : State) (f : Cas → Cas) : (s.onCas f).lports = s.lports := rfl
@[simp] theorem State.onCas_lauth (s : State) (f : Cas → Cas) : (s.onCas f).lauth = s.lauth := rfl
@[simp] theorem State.onCas_cas (s : State) (f : Cas → Cas) : (s.onCas f).cas = f s.cas := rfl
@[simp] theorem State.onCas_lev (s : State) (f : Cas → Cas) : (s.onCas f).lev = s.lev := rfl
@[simp] theorem State.onCas_pwr (s : State) (f : Cas → Cas) : (s.onCas f).pwr = s.pwr := rfl
@[simp] theorem State.onCas_reg (s : State) (f : Cas → Cas) : (s.onCas f).reg = s.reg := rfl
@[simp] theorem State.onCas_mem (s : State) (f : Cas → Cas) : (s.onCas f).mem = s.mem := rfl
@[simp] theorem State.onCas_saf (s : State) (f : Cas → Cas) : (s.onCas f).saf = s.saf := rfl
@[simp] theorem State.onCas_trace (s : State) (f : Cas → Cas) : (s.onCas f).trace = s.trace := rfl
@[simp] theorem State.onCas_tap (s : State) (f : Cas → Cas) : (s.onCas f).tap = s.tap := rfl
@[simp] theorem State.onCas_keys (s : State) (f : Cas → Cas) : (s.onCas f).keys = s.keys := rfl
@[simp] theorem State.onCas_mbx (s : State) (f : Cas → Cas) : (s.onCas f).mbx = s.mbx := rfl

/-! ### `onLev` -/

@[simp] theorem State.onLev_pending (s : State) (f : Lev → Lev) : (s.onLev f).pending = s.pending := rfl
@[simp] theorem State.onLev_free (s : State) (f : Lev → Lev) : (s.onLev f).free = s.free := rfl
@[simp] theorem State.onLev_boot (s : State) (f : Lev → Lev) : (s.onLev f).boot = s.boot := rfl
@[simp] theorem State.onLev_straps (s : State) (f : Lev → Lev) : (s.onLev f).straps = s.straps := rfl
@[simp] theorem State.onLev_fatal (s : State) (f : Lev → Lev) : (s.onLev f).fatal = s.fatal := rfl
@[simp] theorem State.onLev_img (s : State) (f : Lev → Lev) : (s.onLev f).img = s.img := rfl
@[simp] theorem State.onLev_arr (s : State) (f : Lev → Lev) : (s.onLev f).arr = s.arr := rfl
@[simp] theorem State.onLev_stripes (s : State) (f : Lev → Lev) : (s.onLev f).stripes = s.stripes := rfl
@[simp] theorem State.onLev_upsets (s : State) (f : Lev → Lev) : (s.onLev f).upsets = s.upsets := rfl
@[simp] theorem State.onLev_cfl (s : State) (f : Lev → Lev) : (s.onLev f).cfl = s.cfl := rfl
@[simp] theorem State.onLev_weir (s : State) (f : Lev → Lev) : (s.onLev f).weir = s.weir := rfl
@[simp] theorem State.onLev_ctxs (s : State) (f : Lev → Lev) : (s.onLev f).ctxs = s.ctxs := rfl
@[simp] theorem State.onLev_grps (s : State) (f : Lev → Lev) : (s.onLev f).grps = s.grps := rfl
@[simp] theorem State.onLev_ports (s : State) (f : Lev → Lev) : (s.onLev f).ports = s.ports := rfl
@[simp] theorem State.onLev_slcs (s : State) (f : Lev → Lev) : (s.onLev f).slcs = s.slcs := rfl
@[simp] theorem State.onLev_slog (s : State) (f : Lev → Lev) : (s.onLev f).slog = s.slog := rfl
@[simp] theorem State.onLev_tb (s : State) (f : Lev → Lev) : (s.onLev f).tb = s.tb := rfl
@[simp] theorem State.onLev_lanes (s : State) (f : Lev → Lev) : (s.onLev f).lanes = s.lanes := rfl
@[simp] theorem State.onLev_lcnts (s : State) (f : Lev → Lev) : (s.onLev f).lcnts = s.lcnts := rfl
@[simp] theorem State.onLev_lports (s : State) (f : Lev → Lev) : (s.onLev f).lports = s.lports := rfl
@[simp] theorem State.onLev_lauth (s : State) (f : Lev → Lev) : (s.onLev f).lauth = s.lauth := rfl
@[simp] theorem State.onLev_cas (s : State) (f : Lev → Lev) : (s.onLev f).cas = s.cas := rfl
@[simp] theorem State.onLev_lev (s : State) (f : Lev → Lev) : (s.onLev f).lev = f s.lev := rfl
@[simp] theorem State.onLev_pwr (s : State) (f : Lev → Lev) : (s.onLev f).pwr = s.pwr := rfl
@[simp] theorem State.onLev_reg (s : State) (f : Lev → Lev) : (s.onLev f).reg = s.reg := rfl
@[simp] theorem State.onLev_mem (s : State) (f : Lev → Lev) : (s.onLev f).mem = s.mem := rfl
@[simp] theorem State.onLev_saf (s : State) (f : Lev → Lev) : (s.onLev f).saf = s.saf := rfl
@[simp] theorem State.onLev_trace (s : State) (f : Lev → Lev) : (s.onLev f).trace = s.trace := rfl
@[simp] theorem State.onLev_tap (s : State) (f : Lev → Lev) : (s.onLev f).tap = s.tap := rfl
@[simp] theorem State.onLev_keys (s : State) (f : Lev → Lev) : (s.onLev f).keys = s.keys := rfl
@[simp] theorem State.onLev_mbx (s : State) (f : Lev → Lev) : (s.onLev f).mbx = s.mbx := rfl

/-! ### `onPwr` -/

@[simp] theorem State.onPwr_pending (s : State) (f : Pwr → Pwr) : (s.onPwr f).pending = s.pending := rfl
@[simp] theorem State.onPwr_free (s : State) (f : Pwr → Pwr) : (s.onPwr f).free = s.free := rfl
@[simp] theorem State.onPwr_boot (s : State) (f : Pwr → Pwr) : (s.onPwr f).boot = s.boot := rfl
@[simp] theorem State.onPwr_straps (s : State) (f : Pwr → Pwr) : (s.onPwr f).straps = s.straps := rfl
@[simp] theorem State.onPwr_fatal (s : State) (f : Pwr → Pwr) : (s.onPwr f).fatal = s.fatal := rfl
@[simp] theorem State.onPwr_img (s : State) (f : Pwr → Pwr) : (s.onPwr f).img = s.img := rfl
@[simp] theorem State.onPwr_arr (s : State) (f : Pwr → Pwr) : (s.onPwr f).arr = s.arr := rfl
@[simp] theorem State.onPwr_stripes (s : State) (f : Pwr → Pwr) : (s.onPwr f).stripes = s.stripes := rfl
@[simp] theorem State.onPwr_upsets (s : State) (f : Pwr → Pwr) : (s.onPwr f).upsets = s.upsets := rfl
@[simp] theorem State.onPwr_cfl (s : State) (f : Pwr → Pwr) : (s.onPwr f).cfl = s.cfl := rfl
@[simp] theorem State.onPwr_weir (s : State) (f : Pwr → Pwr) : (s.onPwr f).weir = s.weir := rfl
@[simp] theorem State.onPwr_ctxs (s : State) (f : Pwr → Pwr) : (s.onPwr f).ctxs = s.ctxs := rfl
@[simp] theorem State.onPwr_grps (s : State) (f : Pwr → Pwr) : (s.onPwr f).grps = s.grps := rfl
@[simp] theorem State.onPwr_ports (s : State) (f : Pwr → Pwr) : (s.onPwr f).ports = s.ports := rfl
@[simp] theorem State.onPwr_slcs (s : State) (f : Pwr → Pwr) : (s.onPwr f).slcs = s.slcs := rfl
@[simp] theorem State.onPwr_slog (s : State) (f : Pwr → Pwr) : (s.onPwr f).slog = s.slog := rfl
@[simp] theorem State.onPwr_tb (s : State) (f : Pwr → Pwr) : (s.onPwr f).tb = s.tb := rfl
@[simp] theorem State.onPwr_lanes (s : State) (f : Pwr → Pwr) : (s.onPwr f).lanes = s.lanes := rfl
@[simp] theorem State.onPwr_lcnts (s : State) (f : Pwr → Pwr) : (s.onPwr f).lcnts = s.lcnts := rfl
@[simp] theorem State.onPwr_lports (s : State) (f : Pwr → Pwr) : (s.onPwr f).lports = s.lports := rfl
@[simp] theorem State.onPwr_lauth (s : State) (f : Pwr → Pwr) : (s.onPwr f).lauth = s.lauth := rfl
@[simp] theorem State.onPwr_cas (s : State) (f : Pwr → Pwr) : (s.onPwr f).cas = s.cas := rfl
@[simp] theorem State.onPwr_lev (s : State) (f : Pwr → Pwr) : (s.onPwr f).lev = s.lev := rfl
@[simp] theorem State.onPwr_pwr (s : State) (f : Pwr → Pwr) : (s.onPwr f).pwr = f s.pwr := rfl
@[simp] theorem State.onPwr_reg (s : State) (f : Pwr → Pwr) : (s.onPwr f).reg = s.reg := rfl
@[simp] theorem State.onPwr_mem (s : State) (f : Pwr → Pwr) : (s.onPwr f).mem = s.mem := rfl
@[simp] theorem State.onPwr_saf (s : State) (f : Pwr → Pwr) : (s.onPwr f).saf = s.saf := rfl
@[simp] theorem State.onPwr_trace (s : State) (f : Pwr → Pwr) : (s.onPwr f).trace = s.trace := rfl
@[simp] theorem State.onPwr_tap (s : State) (f : Pwr → Pwr) : (s.onPwr f).tap = s.tap := rfl
@[simp] theorem State.onPwr_keys (s : State) (f : Pwr → Pwr) : (s.onPwr f).keys = s.keys := rfl
@[simp] theorem State.onPwr_mbx (s : State) (f : Pwr → Pwr) : (s.onPwr f).mbx = s.mbx := rfl

/-! ### `onReg` -/

@[simp] theorem State.onReg_pending (s : State) (f : RegPort → RegPort) : (s.onReg f).pending = s.pending := rfl
@[simp] theorem State.onReg_free (s : State) (f : RegPort → RegPort) : (s.onReg f).free = s.free := rfl
@[simp] theorem State.onReg_boot (s : State) (f : RegPort → RegPort) : (s.onReg f).boot = s.boot := rfl
@[simp] theorem State.onReg_straps (s : State) (f : RegPort → RegPort) : (s.onReg f).straps = s.straps := rfl
@[simp] theorem State.onReg_fatal (s : State) (f : RegPort → RegPort) : (s.onReg f).fatal = s.fatal := rfl
@[simp] theorem State.onReg_img (s : State) (f : RegPort → RegPort) : (s.onReg f).img = s.img := rfl
@[simp] theorem State.onReg_arr (s : State) (f : RegPort → RegPort) : (s.onReg f).arr = s.arr := rfl
@[simp] theorem State.onReg_stripes (s : State) (f : RegPort → RegPort) : (s.onReg f).stripes = s.stripes := rfl
@[simp] theorem State.onReg_upsets (s : State) (f : RegPort → RegPort) : (s.onReg f).upsets = s.upsets := rfl
@[simp] theorem State.onReg_cfl (s : State) (f : RegPort → RegPort) : (s.onReg f).cfl = s.cfl := rfl
@[simp] theorem State.onReg_weir (s : State) (f : RegPort → RegPort) : (s.onReg f).weir = s.weir := rfl
@[simp] theorem State.onReg_ctxs (s : State) (f : RegPort → RegPort) : (s.onReg f).ctxs = s.ctxs := rfl
@[simp] theorem State.onReg_grps (s : State) (f : RegPort → RegPort) : (s.onReg f).grps = s.grps := rfl
@[simp] theorem State.onReg_ports (s : State) (f : RegPort → RegPort) : (s.onReg f).ports = s.ports := rfl
@[simp] theorem State.onReg_slcs (s : State) (f : RegPort → RegPort) : (s.onReg f).slcs = s.slcs := rfl
@[simp] theorem State.onReg_slog (s : State) (f : RegPort → RegPort) : (s.onReg f).slog = s.slog := rfl
@[simp] theorem State.onReg_tb (s : State) (f : RegPort → RegPort) : (s.onReg f).tb = s.tb := rfl
@[simp] theorem State.onReg_lanes (s : State) (f : RegPort → RegPort) : (s.onReg f).lanes = s.lanes := rfl
@[simp] theorem State.onReg_lcnts (s : State) (f : RegPort → RegPort) : (s.onReg f).lcnts = s.lcnts := rfl
@[simp] theorem State.onReg_lports (s : State) (f : RegPort → RegPort) : (s.onReg f).lports = s.lports := rfl
@[simp] theorem State.onReg_lauth (s : State) (f : RegPort → RegPort) : (s.onReg f).lauth = s.lauth := rfl
@[simp] theorem State.onReg_cas (s : State) (f : RegPort → RegPort) : (s.onReg f).cas = s.cas := rfl
@[simp] theorem State.onReg_lev (s : State) (f : RegPort → RegPort) : (s.onReg f).lev = s.lev := rfl
@[simp] theorem State.onReg_pwr (s : State) (f : RegPort → RegPort) : (s.onReg f).pwr = s.pwr := rfl
@[simp] theorem State.onReg_reg (s : State) (f : RegPort → RegPort) : (s.onReg f).reg = f s.reg := rfl
@[simp] theorem State.onReg_mem (s : State) (f : RegPort → RegPort) : (s.onReg f).mem = s.mem := rfl
@[simp] theorem State.onReg_saf (s : State) (f : RegPort → RegPort) : (s.onReg f).saf = s.saf := rfl
@[simp] theorem State.onReg_trace (s : State) (f : RegPort → RegPort) : (s.onReg f).trace = s.trace := rfl
@[simp] theorem State.onReg_tap (s : State) (f : RegPort → RegPort) : (s.onReg f).tap = s.tap := rfl
@[simp] theorem State.onReg_keys (s : State) (f : RegPort → RegPort) : (s.onReg f).keys = s.keys := rfl
@[simp] theorem State.onReg_mbx (s : State) (f : RegPort → RegPort) : (s.onReg f).mbx = s.mbx := rfl

/-! ### `onMem` -/

@[simp] theorem State.onMem_pending (s : State) (f : MemPort → MemPort) : (s.onMem f).pending = s.pending := rfl
@[simp] theorem State.onMem_free (s : State) (f : MemPort → MemPort) : (s.onMem f).free = s.free := rfl
@[simp] theorem State.onMem_boot (s : State) (f : MemPort → MemPort) : (s.onMem f).boot = s.boot := rfl
@[simp] theorem State.onMem_straps (s : State) (f : MemPort → MemPort) : (s.onMem f).straps = s.straps := rfl
@[simp] theorem State.onMem_fatal (s : State) (f : MemPort → MemPort) : (s.onMem f).fatal = s.fatal := rfl
@[simp] theorem State.onMem_img (s : State) (f : MemPort → MemPort) : (s.onMem f).img = s.img := rfl
@[simp] theorem State.onMem_arr (s : State) (f : MemPort → MemPort) : (s.onMem f).arr = s.arr := rfl
@[simp] theorem State.onMem_stripes (s : State) (f : MemPort → MemPort) : (s.onMem f).stripes = s.stripes := rfl
@[simp] theorem State.onMem_upsets (s : State) (f : MemPort → MemPort) : (s.onMem f).upsets = s.upsets := rfl
@[simp] theorem State.onMem_cfl (s : State) (f : MemPort → MemPort) : (s.onMem f).cfl = s.cfl := rfl
@[simp] theorem State.onMem_weir (s : State) (f : MemPort → MemPort) : (s.onMem f).weir = s.weir := rfl
@[simp] theorem State.onMem_ctxs (s : State) (f : MemPort → MemPort) : (s.onMem f).ctxs = s.ctxs := rfl
@[simp] theorem State.onMem_grps (s : State) (f : MemPort → MemPort) : (s.onMem f).grps = s.grps := rfl
@[simp] theorem State.onMem_ports (s : State) (f : MemPort → MemPort) : (s.onMem f).ports = s.ports := rfl
@[simp] theorem State.onMem_slcs (s : State) (f : MemPort → MemPort) : (s.onMem f).slcs = s.slcs := rfl
@[simp] theorem State.onMem_slog (s : State) (f : MemPort → MemPort) : (s.onMem f).slog = s.slog := rfl
@[simp] theorem State.onMem_tb (s : State) (f : MemPort → MemPort) : (s.onMem f).tb = s.tb := rfl
@[simp] theorem State.onMem_lanes (s : State) (f : MemPort → MemPort) : (s.onMem f).lanes = s.lanes := rfl
@[simp] theorem State.onMem_lcnts (s : State) (f : MemPort → MemPort) : (s.onMem f).lcnts = s.lcnts := rfl
@[simp] theorem State.onMem_lports (s : State) (f : MemPort → MemPort) : (s.onMem f).lports = s.lports := rfl
@[simp] theorem State.onMem_lauth (s : State) (f : MemPort → MemPort) : (s.onMem f).lauth = s.lauth := rfl
@[simp] theorem State.onMem_cas (s : State) (f : MemPort → MemPort) : (s.onMem f).cas = s.cas := rfl
@[simp] theorem State.onMem_lev (s : State) (f : MemPort → MemPort) : (s.onMem f).lev = s.lev := rfl
@[simp] theorem State.onMem_pwr (s : State) (f : MemPort → MemPort) : (s.onMem f).pwr = s.pwr := rfl
@[simp] theorem State.onMem_reg (s : State) (f : MemPort → MemPort) : (s.onMem f).reg = s.reg := rfl
@[simp] theorem State.onMem_mem (s : State) (f : MemPort → MemPort) : (s.onMem f).mem = f s.mem := rfl
@[simp] theorem State.onMem_saf (s : State) (f : MemPort → MemPort) : (s.onMem f).saf = s.saf := rfl
@[simp] theorem State.onMem_trace (s : State) (f : MemPort → MemPort) : (s.onMem f).trace = s.trace := rfl
@[simp] theorem State.onMem_tap (s : State) (f : MemPort → MemPort) : (s.onMem f).tap = s.tap := rfl
@[simp] theorem State.onMem_keys (s : State) (f : MemPort → MemPort) : (s.onMem f).keys = s.keys := rfl
@[simp] theorem State.onMem_mbx (s : State) (f : MemPort → MemPort) : (s.onMem f).mbx = s.mbx := rfl

/-! ### `onSaf` -/

@[simp] theorem State.onSaf_pending (s : State) (f : Saf → Saf) : (s.onSaf f).pending = s.pending := rfl
@[simp] theorem State.onSaf_free (s : State) (f : Saf → Saf) : (s.onSaf f).free = s.free := rfl
@[simp] theorem State.onSaf_boot (s : State) (f : Saf → Saf) : (s.onSaf f).boot = s.boot := rfl
@[simp] theorem State.onSaf_straps (s : State) (f : Saf → Saf) : (s.onSaf f).straps = s.straps := rfl
@[simp] theorem State.onSaf_fatal (s : State) (f : Saf → Saf) : (s.onSaf f).fatal = s.fatal := rfl
@[simp] theorem State.onSaf_img (s : State) (f : Saf → Saf) : (s.onSaf f).img = s.img := rfl
@[simp] theorem State.onSaf_arr (s : State) (f : Saf → Saf) : (s.onSaf f).arr = s.arr := rfl
@[simp] theorem State.onSaf_stripes (s : State) (f : Saf → Saf) : (s.onSaf f).stripes = s.stripes := rfl
@[simp] theorem State.onSaf_upsets (s : State) (f : Saf → Saf) : (s.onSaf f).upsets = s.upsets := rfl
@[simp] theorem State.onSaf_cfl (s : State) (f : Saf → Saf) : (s.onSaf f).cfl = s.cfl := rfl
@[simp] theorem State.onSaf_weir (s : State) (f : Saf → Saf) : (s.onSaf f).weir = s.weir := rfl
@[simp] theorem State.onSaf_ctxs (s : State) (f : Saf → Saf) : (s.onSaf f).ctxs = s.ctxs := rfl
@[simp] theorem State.onSaf_grps (s : State) (f : Saf → Saf) : (s.onSaf f).grps = s.grps := rfl
@[simp] theorem State.onSaf_ports (s : State) (f : Saf → Saf) : (s.onSaf f).ports = s.ports := rfl
@[simp] theorem State.onSaf_slcs (s : State) (f : Saf → Saf) : (s.onSaf f).slcs = s.slcs := rfl
@[simp] theorem State.onSaf_slog (s : State) (f : Saf → Saf) : (s.onSaf f).slog = s.slog := rfl
@[simp] theorem State.onSaf_tb (s : State) (f : Saf → Saf) : (s.onSaf f).tb = s.tb := rfl
@[simp] theorem State.onSaf_lanes (s : State) (f : Saf → Saf) : (s.onSaf f).lanes = s.lanes := rfl
@[simp] theorem State.onSaf_lcnts (s : State) (f : Saf → Saf) : (s.onSaf f).lcnts = s.lcnts := rfl
@[simp] theorem State.onSaf_lports (s : State) (f : Saf → Saf) : (s.onSaf f).lports = s.lports := rfl
@[simp] theorem State.onSaf_lauth (s : State) (f : Saf → Saf) : (s.onSaf f).lauth = s.lauth := rfl
@[simp] theorem State.onSaf_cas (s : State) (f : Saf → Saf) : (s.onSaf f).cas = s.cas := rfl
@[simp] theorem State.onSaf_lev (s : State) (f : Saf → Saf) : (s.onSaf f).lev = s.lev := rfl
@[simp] theorem State.onSaf_pwr (s : State) (f : Saf → Saf) : (s.onSaf f).pwr = s.pwr := rfl
@[simp] theorem State.onSaf_reg (s : State) (f : Saf → Saf) : (s.onSaf f).reg = s.reg := rfl
@[simp] theorem State.onSaf_mem (s : State) (f : Saf → Saf) : (s.onSaf f).mem = s.mem := rfl
@[simp] theorem State.onSaf_saf (s : State) (f : Saf → Saf) : (s.onSaf f).saf = f s.saf := rfl
@[simp] theorem State.onSaf_trace (s : State) (f : Saf → Saf) : (s.onSaf f).trace = s.trace := rfl
@[simp] theorem State.onSaf_tap (s : State) (f : Saf → Saf) : (s.onSaf f).tap = s.tap := rfl
@[simp] theorem State.onSaf_keys (s : State) (f : Saf → Saf) : (s.onSaf f).keys = s.keys := rfl
@[simp] theorem State.onSaf_mbx (s : State) (f : Saf → Saf) : (s.onSaf f).mbx = s.mbx := rfl

/-! ### `onTrace` -/

@[simp] theorem State.onTrace_pending (s : State) (f : List (BitVec 64 × BitVec 64) → List (BitVec 64 × BitVec 64)) : (s.onTrace f).pending = s.pending := rfl
@[simp] theorem State.onTrace_free (s : State) (f : List (BitVec 64 × BitVec 64) → List (BitVec 64 × BitVec 64)) : (s.onTrace f).free = s.free := rfl
@[simp] theorem State.onTrace_boot (s : State) (f : List (BitVec 64 × BitVec 64) → List (BitVec 64 × BitVec 64)) : (s.onTrace f).boot = s.boot := rfl
@[simp] theorem State.onTrace_straps (s : State) (f : List (BitVec 64 × BitVec 64) → List (BitVec 64 × BitVec 64)) : (s.onTrace f).straps = s.straps := rfl
@[simp] theorem State.onTrace_fatal (s : State) (f : List (BitVec 64 × BitVec 64) → List (BitVec 64 × BitVec 64)) : (s.onTrace f).fatal = s.fatal := rfl
@[simp] theorem State.onTrace_img (s : State) (f : List (BitVec 64 × BitVec 64) → List (BitVec 64 × BitVec 64)) : (s.onTrace f).img = s.img := rfl
@[simp] theorem State.onTrace_arr (s : State) (f : List (BitVec 64 × BitVec 64) → List (BitVec 64 × BitVec 64)) : (s.onTrace f).arr = s.arr := rfl
@[simp] theorem State.onTrace_stripes (s : State) (f : List (BitVec 64 × BitVec 64) → List (BitVec 64 × BitVec 64)) : (s.onTrace f).stripes = s.stripes := rfl
@[simp] theorem State.onTrace_upsets (s : State) (f : List (BitVec 64 × BitVec 64) → List (BitVec 64 × BitVec 64)) : (s.onTrace f).upsets = s.upsets := rfl
@[simp] theorem State.onTrace_cfl (s : State) (f : List (BitVec 64 × BitVec 64) → List (BitVec 64 × BitVec 64)) : (s.onTrace f).cfl = s.cfl := rfl
@[simp] theorem State.onTrace_weir (s : State) (f : List (BitVec 64 × BitVec 64) → List (BitVec 64 × BitVec 64)) : (s.onTrace f).weir = s.weir := rfl
@[simp] theorem State.onTrace_ctxs (s : State) (f : List (BitVec 64 × BitVec 64) → List (BitVec 64 × BitVec 64)) : (s.onTrace f).ctxs = s.ctxs := rfl
@[simp] theorem State.onTrace_grps (s : State) (f : List (BitVec 64 × BitVec 64) → List (BitVec 64 × BitVec 64)) : (s.onTrace f).grps = s.grps := rfl
@[simp] theorem State.onTrace_ports (s : State) (f : List (BitVec 64 × BitVec 64) → List (BitVec 64 × BitVec 64)) : (s.onTrace f).ports = s.ports := rfl
@[simp] theorem State.onTrace_slcs (s : State) (f : List (BitVec 64 × BitVec 64) → List (BitVec 64 × BitVec 64)) : (s.onTrace f).slcs = s.slcs := rfl
@[simp] theorem State.onTrace_slog (s : State) (f : List (BitVec 64 × BitVec 64) → List (BitVec 64 × BitVec 64)) : (s.onTrace f).slog = s.slog := rfl
@[simp] theorem State.onTrace_tb (s : State) (f : List (BitVec 64 × BitVec 64) → List (BitVec 64 × BitVec 64)) : (s.onTrace f).tb = s.tb := rfl
@[simp] theorem State.onTrace_lanes (s : State) (f : List (BitVec 64 × BitVec 64) → List (BitVec 64 × BitVec 64)) : (s.onTrace f).lanes = s.lanes := rfl
@[simp] theorem State.onTrace_lcnts (s : State) (f : List (BitVec 64 × BitVec 64) → List (BitVec 64 × BitVec 64)) : (s.onTrace f).lcnts = s.lcnts := rfl
@[simp] theorem State.onTrace_lports (s : State) (f : List (BitVec 64 × BitVec 64) → List (BitVec 64 × BitVec 64)) : (s.onTrace f).lports = s.lports := rfl
@[simp] theorem State.onTrace_lauth (s : State) (f : List (BitVec 64 × BitVec 64) → List (BitVec 64 × BitVec 64)) : (s.onTrace f).lauth = s.lauth := rfl
@[simp] theorem State.onTrace_cas (s : State) (f : List (BitVec 64 × BitVec 64) → List (BitVec 64 × BitVec 64)) : (s.onTrace f).cas = s.cas := rfl
@[simp] theorem State.onTrace_lev (s : State) (f : List (BitVec 64 × BitVec 64) → List (BitVec 64 × BitVec 64)) : (s.onTrace f).lev = s.lev := rfl
@[simp] theorem State.onTrace_pwr (s : State) (f : List (BitVec 64 × BitVec 64) → List (BitVec 64 × BitVec 64)) : (s.onTrace f).pwr = s.pwr := rfl
@[simp] theorem State.onTrace_reg (s : State) (f : List (BitVec 64 × BitVec 64) → List (BitVec 64 × BitVec 64)) : (s.onTrace f).reg = s.reg := rfl
@[simp] theorem State.onTrace_mem (s : State) (f : List (BitVec 64 × BitVec 64) → List (BitVec 64 × BitVec 64)) : (s.onTrace f).mem = s.mem := rfl
@[simp] theorem State.onTrace_saf (s : State) (f : List (BitVec 64 × BitVec 64) → List (BitVec 64 × BitVec 64)) : (s.onTrace f).saf = s.saf := rfl
@[simp] theorem State.onTrace_trace (s : State) (f : List (BitVec 64 × BitVec 64) → List (BitVec 64 × BitVec 64)) : (s.onTrace f).trace = f s.trace := rfl
@[simp] theorem State.onTrace_tap (s : State) (f : List (BitVec 64 × BitVec 64) → List (BitVec 64 × BitVec 64)) : (s.onTrace f).tap = s.tap := rfl
@[simp] theorem State.onTrace_keys (s : State) (f : List (BitVec 64 × BitVec 64) → List (BitVec 64 × BitVec 64)) : (s.onTrace f).keys = s.keys := rfl
@[simp] theorem State.onTrace_mbx (s : State) (f : List (BitVec 64 × BitVec 64) → List (BitVec 64 × BitVec 64)) : (s.onTrace f).mbx = s.mbx := rfl

/-! ### `onTap` -/

@[simp] theorem State.onTap_pending (s : State) (f : Tap → Tap) : (s.onTap f).pending = s.pending := rfl
@[simp] theorem State.onTap_free (s : State) (f : Tap → Tap) : (s.onTap f).free = s.free := rfl
@[simp] theorem State.onTap_boot (s : State) (f : Tap → Tap) : (s.onTap f).boot = s.boot := rfl
@[simp] theorem State.onTap_straps (s : State) (f : Tap → Tap) : (s.onTap f).straps = s.straps := rfl
@[simp] theorem State.onTap_fatal (s : State) (f : Tap → Tap) : (s.onTap f).fatal = s.fatal := rfl
@[simp] theorem State.onTap_img (s : State) (f : Tap → Tap) : (s.onTap f).img = s.img := rfl
@[simp] theorem State.onTap_arr (s : State) (f : Tap → Tap) : (s.onTap f).arr = s.arr := rfl
@[simp] theorem State.onTap_stripes (s : State) (f : Tap → Tap) : (s.onTap f).stripes = s.stripes := rfl
@[simp] theorem State.onTap_upsets (s : State) (f : Tap → Tap) : (s.onTap f).upsets = s.upsets := rfl
@[simp] theorem State.onTap_cfl (s : State) (f : Tap → Tap) : (s.onTap f).cfl = s.cfl := rfl
@[simp] theorem State.onTap_weir (s : State) (f : Tap → Tap) : (s.onTap f).weir = s.weir := rfl
@[simp] theorem State.onTap_ctxs (s : State) (f : Tap → Tap) : (s.onTap f).ctxs = s.ctxs := rfl
@[simp] theorem State.onTap_grps (s : State) (f : Tap → Tap) : (s.onTap f).grps = s.grps := rfl
@[simp] theorem State.onTap_ports (s : State) (f : Tap → Tap) : (s.onTap f).ports = s.ports := rfl
@[simp] theorem State.onTap_slcs (s : State) (f : Tap → Tap) : (s.onTap f).slcs = s.slcs := rfl
@[simp] theorem State.onTap_slog (s : State) (f : Tap → Tap) : (s.onTap f).slog = s.slog := rfl
@[simp] theorem State.onTap_tb (s : State) (f : Tap → Tap) : (s.onTap f).tb = s.tb := rfl
@[simp] theorem State.onTap_lanes (s : State) (f : Tap → Tap) : (s.onTap f).lanes = s.lanes := rfl
@[simp] theorem State.onTap_lcnts (s : State) (f : Tap → Tap) : (s.onTap f).lcnts = s.lcnts := rfl
@[simp] theorem State.onTap_lports (s : State) (f : Tap → Tap) : (s.onTap f).lports = s.lports := rfl
@[simp] theorem State.onTap_lauth (s : State) (f : Tap → Tap) : (s.onTap f).lauth = s.lauth := rfl
@[simp] theorem State.onTap_cas (s : State) (f : Tap → Tap) : (s.onTap f).cas = s.cas := rfl
@[simp] theorem State.onTap_lev (s : State) (f : Tap → Tap) : (s.onTap f).lev = s.lev := rfl
@[simp] theorem State.onTap_pwr (s : State) (f : Tap → Tap) : (s.onTap f).pwr = s.pwr := rfl
@[simp] theorem State.onTap_reg (s : State) (f : Tap → Tap) : (s.onTap f).reg = s.reg := rfl
@[simp] theorem State.onTap_mem (s : State) (f : Tap → Tap) : (s.onTap f).mem = s.mem := rfl
@[simp] theorem State.onTap_saf (s : State) (f : Tap → Tap) : (s.onTap f).saf = s.saf := rfl
@[simp] theorem State.onTap_trace (s : State) (f : Tap → Tap) : (s.onTap f).trace = s.trace := rfl
@[simp] theorem State.onTap_tap (s : State) (f : Tap → Tap) : (s.onTap f).tap = f s.tap := rfl
@[simp] theorem State.onTap_keys (s : State) (f : Tap → Tap) : (s.onTap f).keys = s.keys := rfl
@[simp] theorem State.onTap_mbx (s : State) (f : Tap → Tap) : (s.onTap f).mbx = s.mbx := rfl

/-! ### `onKeys` -/

@[simp] theorem State.onKeys_pending (s : State) (f : Keys → Keys) : (s.onKeys f).pending = s.pending := rfl
@[simp] theorem State.onKeys_free (s : State) (f : Keys → Keys) : (s.onKeys f).free = s.free := rfl
@[simp] theorem State.onKeys_boot (s : State) (f : Keys → Keys) : (s.onKeys f).boot = s.boot := rfl
@[simp] theorem State.onKeys_straps (s : State) (f : Keys → Keys) : (s.onKeys f).straps = s.straps := rfl
@[simp] theorem State.onKeys_fatal (s : State) (f : Keys → Keys) : (s.onKeys f).fatal = s.fatal := rfl
@[simp] theorem State.onKeys_img (s : State) (f : Keys → Keys) : (s.onKeys f).img = s.img := rfl
@[simp] theorem State.onKeys_arr (s : State) (f : Keys → Keys) : (s.onKeys f).arr = s.arr := rfl
@[simp] theorem State.onKeys_stripes (s : State) (f : Keys → Keys) : (s.onKeys f).stripes = s.stripes := rfl
@[simp] theorem State.onKeys_upsets (s : State) (f : Keys → Keys) : (s.onKeys f).upsets = s.upsets := rfl
@[simp] theorem State.onKeys_cfl (s : State) (f : Keys → Keys) : (s.onKeys f).cfl = s.cfl := rfl
@[simp] theorem State.onKeys_weir (s : State) (f : Keys → Keys) : (s.onKeys f).weir = s.weir := rfl
@[simp] theorem State.onKeys_ctxs (s : State) (f : Keys → Keys) : (s.onKeys f).ctxs = s.ctxs := rfl
@[simp] theorem State.onKeys_grps (s : State) (f : Keys → Keys) : (s.onKeys f).grps = s.grps := rfl
@[simp] theorem State.onKeys_ports (s : State) (f : Keys → Keys) : (s.onKeys f).ports = s.ports := rfl
@[simp] theorem State.onKeys_slcs (s : State) (f : Keys → Keys) : (s.onKeys f).slcs = s.slcs := rfl
@[simp] theorem State.onKeys_slog (s : State) (f : Keys → Keys) : (s.onKeys f).slog = s.slog := rfl
@[simp] theorem State.onKeys_tb (s : State) (f : Keys → Keys) : (s.onKeys f).tb = s.tb := rfl
@[simp] theorem State.onKeys_lanes (s : State) (f : Keys → Keys) : (s.onKeys f).lanes = s.lanes := rfl
@[simp] theorem State.onKeys_lcnts (s : State) (f : Keys → Keys) : (s.onKeys f).lcnts = s.lcnts := rfl
@[simp] theorem State.onKeys_lports (s : State) (f : Keys → Keys) : (s.onKeys f).lports = s.lports := rfl
@[simp] theorem State.onKeys_lauth (s : State) (f : Keys → Keys) : (s.onKeys f).lauth = s.lauth := rfl
@[simp] theorem State.onKeys_cas (s : State) (f : Keys → Keys) : (s.onKeys f).cas = s.cas := rfl
@[simp] theorem State.onKeys_lev (s : State) (f : Keys → Keys) : (s.onKeys f).lev = s.lev := rfl
@[simp] theorem State.onKeys_pwr (s : State) (f : Keys → Keys) : (s.onKeys f).pwr = s.pwr := rfl
@[simp] theorem State.onKeys_reg (s : State) (f : Keys → Keys) : (s.onKeys f).reg = s.reg := rfl
@[simp] theorem State.onKeys_mem (s : State) (f : Keys → Keys) : (s.onKeys f).mem = s.mem := rfl
@[simp] theorem State.onKeys_saf (s : State) (f : Keys → Keys) : (s.onKeys f).saf = s.saf := rfl
@[simp] theorem State.onKeys_trace (s : State) (f : Keys → Keys) : (s.onKeys f).trace = s.trace := rfl
@[simp] theorem State.onKeys_tap (s : State) (f : Keys → Keys) : (s.onKeys f).tap = s.tap := rfl
@[simp] theorem State.onKeys_keys (s : State) (f : Keys → Keys) : (s.onKeys f).keys = f s.keys := rfl
@[simp] theorem State.onKeys_mbx (s : State) (f : Keys → Keys) : (s.onKeys f).mbx = s.mbx := rfl

/-! ### `onMbx` -/

@[simp] theorem State.onMbx_pending (s : State) (f : Mbx → Mbx) : (s.onMbx f).pending = s.pending := rfl
@[simp] theorem State.onMbx_free (s : State) (f : Mbx → Mbx) : (s.onMbx f).free = s.free := rfl
@[simp] theorem State.onMbx_boot (s : State) (f : Mbx → Mbx) : (s.onMbx f).boot = s.boot := rfl
@[simp] theorem State.onMbx_straps (s : State) (f : Mbx → Mbx) : (s.onMbx f).straps = s.straps := rfl
@[simp] theorem State.onMbx_fatal (s : State) (f : Mbx → Mbx) : (s.onMbx f).fatal = s.fatal := rfl
@[simp] theorem State.onMbx_img (s : State) (f : Mbx → Mbx) : (s.onMbx f).img = s.img := rfl
@[simp] theorem State.onMbx_arr (s : State) (f : Mbx → Mbx) : (s.onMbx f).arr = s.arr := rfl
@[simp] theorem State.onMbx_stripes (s : State) (f : Mbx → Mbx) : (s.onMbx f).stripes = s.stripes := rfl
@[simp] theorem State.onMbx_upsets (s : State) (f : Mbx → Mbx) : (s.onMbx f).upsets = s.upsets := rfl
@[simp] theorem State.onMbx_cfl (s : State) (f : Mbx → Mbx) : (s.onMbx f).cfl = s.cfl := rfl
@[simp] theorem State.onMbx_weir (s : State) (f : Mbx → Mbx) : (s.onMbx f).weir = s.weir := rfl
@[simp] theorem State.onMbx_ctxs (s : State) (f : Mbx → Mbx) : (s.onMbx f).ctxs = s.ctxs := rfl
@[simp] theorem State.onMbx_grps (s : State) (f : Mbx → Mbx) : (s.onMbx f).grps = s.grps := rfl
@[simp] theorem State.onMbx_ports (s : State) (f : Mbx → Mbx) : (s.onMbx f).ports = s.ports := rfl
@[simp] theorem State.onMbx_slcs (s : State) (f : Mbx → Mbx) : (s.onMbx f).slcs = s.slcs := rfl
@[simp] theorem State.onMbx_slog (s : State) (f : Mbx → Mbx) : (s.onMbx f).slog = s.slog := rfl
@[simp] theorem State.onMbx_tb (s : State) (f : Mbx → Mbx) : (s.onMbx f).tb = s.tb := rfl
@[simp] theorem State.onMbx_lanes (s : State) (f : Mbx → Mbx) : (s.onMbx f).lanes = s.lanes := rfl
@[simp] theorem State.onMbx_lcnts (s : State) (f : Mbx → Mbx) : (s.onMbx f).lcnts = s.lcnts := rfl
@[simp] theorem State.onMbx_lports (s : State) (f : Mbx → Mbx) : (s.onMbx f).lports = s.lports := rfl
@[simp] theorem State.onMbx_lauth (s : State) (f : Mbx → Mbx) : (s.onMbx f).lauth = s.lauth := rfl
@[simp] theorem State.onMbx_cas (s : State) (f : Mbx → Mbx) : (s.onMbx f).cas = s.cas := rfl
@[simp] theorem State.onMbx_lev (s : State) (f : Mbx → Mbx) : (s.onMbx f).lev = s.lev := rfl
@[simp] theorem State.onMbx_pwr (s : State) (f : Mbx → Mbx) : (s.onMbx f).pwr = s.pwr := rfl
@[simp] theorem State.onMbx_reg (s : State) (f : Mbx → Mbx) : (s.onMbx f).reg = s.reg := rfl
@[simp] theorem State.onMbx_mem (s : State) (f : Mbx → Mbx) : (s.onMbx f).mem = s.mem := rfl
@[simp] theorem State.onMbx_saf (s : State) (f : Mbx → Mbx) : (s.onMbx f).saf = s.saf := rfl
@[simp] theorem State.onMbx_trace (s : State) (f : Mbx → Mbx) : (s.onMbx f).trace = s.trace := rfl
@[simp] theorem State.onMbx_tap (s : State) (f : Mbx → Mbx) : (s.onMbx f).tap = s.tap := rfl
@[simp] theorem State.onMbx_keys (s : State) (f : Mbx → Mbx) : (s.onMbx f).keys = s.keys := rfl
@[simp] theorem State.onMbx_mbx (s : State) (f : Mbx → Mbx) : (s.onMbx f).mbx = f s.mbx := rfl

end Sys2Proof.Machine
end

