-- ==== Sys2Proof/Laws/Ops.lean ====
section
/-!
SUPPORT. What each shared operation can do, said once: reads of the sparse arrays after their change functions, the
frame of recording, raising and sending, work on domains that are all on.
-/

namespace Sys2Proof.Machine

/-! ### Sparse arrays: a read after a change, at every index -/

theorem State.onCtx_eq (s : State) (k : Nat) (f : Ctx → Ctx) :
    s.onCtx k f = { s with ctxs := SMap.upd {} s.ctxs k f } := rfl

@[simp] theorem State.onCtx_ctx (s : State) (k : Nat) (f : Ctx → Ctx) (i : Nat) :
    (s.onCtx k f).ctx i = if i = k then f (s.ctx k) else s.ctx i := SMap.get_upd ({} : Ctx) s.ctxs k f i

theorem State.onGrp_eq (s : State) (k : Nat) (f : Grp → Grp) :
    s.onGrp k f = { s with grps := SMap.upd {} s.grps k f } := rfl

@[simp] theorem State.onGrp_grp (s : State) (k : Nat) (f : Grp → Grp) (i : Nat) :
    (s.onGrp k f).grp i = if i = k then f (s.grp k) else s.grp i := SMap.get_upd ({} : Grp) s.grps k f i

theorem State.onPort_eq (s : State) (k : Nat) (f : Port → Port) :
    s.onPort k f = { s with ports := SMap.upd {} s.ports k f } := rfl

@[simp] theorem State.onPort_port (s : State) (k : Nat) (f : Port → Port) (i : Nat) :
    (s.onPort k f).port i = if i = k then f (s.port k) else s.port i := SMap.get_upd ({} : Port) s.ports k f i

theorem State.onSlc_eq (s : State) (k : Nat) (f : Slc → Slc) :
    s.onSlc k f = { s with slcs := SMap.upd {} s.slcs k f } := rfl

@[simp] theorem State.onSlc_slc (s : State) (k : Nat) (f : Slc → Slc) (i : Nat) :
    (s.onSlc k f).slc i = if i = k then f (s.slc k) else s.slc i := SMap.get_upd ({} : Slc) s.slcs k f i

theorem State.onLane_eq (s : State) (k : Nat) (f : Lane → Lane) :
    s.onLane k f = { s with lanes := SMap.upd {} s.lanes k f } := rfl

@[simp] theorem State.onLane_lane (s : State) (k : Nat) (f : Lane → Lane) (i : Nat) :
    (s.onLane k f).lane i = if i = k then f (s.lane k) else s.lane i := SMap.get_upd ({} : Lane) s.lanes k f i

theorem State.onLcnt_eq (s : State) (k : Nat) (f : LaneCnt → LaneCnt) :
    s.onLcnt k f = { s with lcnts := SMap.upd {} s.lcnts k f } := rfl

@[simp] theorem State.onLcnt_lcnt (s : State) (k : Nat) (f : LaneCnt → LaneCnt) (i : Nat) :
    (s.onLcnt k f).lcnt i = if i = k then f (s.lcnt k) else s.lcnt i := SMap.get_upd ({} : LaneCnt) s.lcnts k f i

theorem State.onLport_eq (s : State) (k : Nat) (f : LPort → LPort) :
    s.onLport k f = { s with lports := SMap.upd {} s.lports k f } := rfl

@[simp] theorem State.onLport_lport (s : State) (k : Nat) (f : LPort → LPort) (i : Nat) :
    (s.onLport k f).lport i = if i = k then f (s.lport k) else s.lport i := SMap.get_upd ({} : LPort) s.lports k f i

theorem State.onLauthOf_eq (s : State) (k : Nat) (f : LAuth → LAuth) :
    s.onLauthOf k f = { s with lauth := SMap.upd {} s.lauth k f } := rfl

@[simp] theorem State.onLauthOf_lauthOf (s : State) (k : Nat) (f : LAuth → LAuth) (i : Nat) :
    (s.onLauthOf k f).lauthOf i = if i = k then f (s.lauthOf k) else s.lauthOf i := SMap.get_upd ({} : LAuth) s.lauth k f i

theorem State.onLatch_eq (s : State) (k : Nat) (f : Latch → Latch) :
    s.onLatch k f = { s with cfl := { s.cfl with latches := SMap.upd {} s.cfl.latches k f } } := rfl

@[simp] theorem State.onLatch_latch (s : State) (k : Nat) (f : Latch → Latch) (i : Nat) :
    (s.onLatch k f).latch i = if i = k then f (s.latch k) else s.latch i := SMap.get_upd ({} : Latch) s.cfl.latches k f i

theorem State.onLine_eq (s : State) (k : Nat) (f : Line → Line) :
    s.onLine k f = { s with cfl := { s.cfl with lines := SMap.upd {} s.cfl.lines k f } } := rfl

@[simp] theorem State.onLine_line (s : State) (k : Nat) (f : Line → Line) (i : Nat) :
    (s.onLine k f).line i = if i = k then f (s.line k) else s.line i := SMap.get_upd ({} : Line) s.cfl.lines k f i

/-! ### SSA and PLA entries (R144, R146, R148) -/

theorem State.setEntry_eq (s : State) (n : Nat) (e : Entry) :
    s.setEntry n e = { s with arr := s.arr.putEntry n e } := rfl

/-- A listed entry reads the same whatever default an unlisted one would have. -/
theorem SMap.get_default {α : Type} (d e : α) (m : SMap α) (i : Nat) (h : i ∈ m.map Prod.fst) :
    SMap.get d m i = SMap.get e m i := by
  induction m with
  | nil => cases h
  | cons p m ih =>
    obtain ⟨j, w⟩ := p
    simp only [List.map_cons, List.mem_cons] at h
    by_cases hj : i = j
    · simp [SMap.get, hj]
    · simp only [SMap.get, hj, if_false]
      exact ih (h.resolve_left hj)

@[simp] theorem State.setEntry_entry (s : State) (n : Nat) (e : Entry) (m : Nat) :
    (s.setEntry n e).entry m = if m = n then e else s.entry m := by
  show SMap.get (baseEntry s.arr m) (SMap.set (baseEntry s.arr n) s.arr.cells n e) m = _
  by_cases h : m = n
  · subst h
    simp
  · simp only [h, if_false, SMap.set, State.entry]
    split
    · rw [SMap.get_erase]
      simp [h]
    · rw [SMap.get_put]
      simp [h]

@[simp] theorem State.setEntry_plaOf (s : State) (n : Nat) (e : Entry) (m : Nat) :
    (s.setEntry n e).plaOf m = s.plaOf m := rfl

@[simp] theorem State.onEntry_entry (s : State) (n : Nat) (f : Entry → Entry) (m : Nat) :
    (s.onEntry n f).entry m = if m = n then f (s.entry n) else s.entry m := State.setEntry_entry s n _ m

@[simp] theorem State.setSt_entry (s : State) (n : Nat) (st : SState) (m : Nat) :
    (s.setSt n st).entry m = if m = n then { s.entry n with state := st } else s.entry m :=
  State.setEntry_entry s n _ m

@[simp] theorem State.setSt_plaOf (s : State) (n : Nat) (st : SState) (m : Nat) :
    (s.setSt n st).plaOf m = s.plaOf m := rfl

@[simp] theorem State.onPla_plaOf (s : State) (n : Nat) (f : Pla → Pla) (m : Nat) :
    (s.onPla n f).plaOf m = if m = n then f (s.plaOf n) else s.plaOf m := by
  show SMap.get (basePla s.arr m) (SMap.set (basePla s.arr n) s.arr.pla n (f (s.plaOf n))) m = _
  generalize f (s.plaOf n) = v
  by_cases h : m = n
  · subst h
    simp
  · simp only [h, if_false, SMap.set, State.plaOf]
    split
    · rw [SMap.get_erase]
      simp [h]
    · rw [SMap.get_put]
      simp [h]

@[simp] theorem State.onPla_entry (s : State) (n : Nat) (f : Pla → Pla) (m : Nat) :
    (s.onPla n f).entry m = s.entry m := rfl

theorem State.onPla_frame (s : State) (n : Nat) (f : Pla → Pla) :
    s.onPla n f = { s with arr := s.arr.putPla n (f (s.plaOf n)) } := rfl

/-! ### Errors that stand in the arrays (R163, R176, R179) -/

/-- With no error standing, accesses find none. -/
theorem State.finds_of_nil (s : State) (p : Upset → Bool) (h : s.upsets = []) : s.finds p = (s, true) := by
  simp only [State.finds, h, List.filter_nil, List.foldl_nil]
  rw [← h]

/-- With no error standing, work on the arrays is not held up. -/
theorem State.usingWords_of_nil (s : State) (p : Upset → Bool) (f : State → State) (h : s.upsets = []) :
    s.usingWords p f = f s := by simp [State.usingWords, State.finds_of_nil s p h]

/-! ### Domains that work calls (R377, R382, R386) -/

/-- A wake changes the power sequencer alone. -/
theorem State.startWake_spec (s : State) (d : Nat) : ∃ p, s.startWake d = { s with pwr := p } := by
  have one : ∀ (t : State) (k : Nat), ∃ p, t.requestPower k = { t with pwr := p } := by
    intro t k
    simp only [State.requestPower]
    split
    · split <;> exact ⟨_, rfl⟩
    · exact ⟨t.pwr, rfl⟩
  simp only [State.startWake]
  split
  · obtain ⟨p, h⟩ := one s d
    obtain ⟨q, h'⟩ := one (s.requestPower d) dTB
    exact ⟨q, by rw [h', h]⟩
  · exact ⟨s.pwr, rfl⟩

/-- Work that waits for its domains changes the power sequencer alone. -/
theorem State.wakeFor_spec (s : State) (ds : List Nat) (k : Nat) : ∃ p, s.wakeFor ds k = { s with pwr := p } := by
  simp only [State.wakeFor]
  split
  · exact ⟨_, rfl⟩
  · have fold : ∀ (l : List Nat) (t : State), ∃ p, l.foldl State.startWake t = { t with pwr := p } := by
      intro l
      induction l with
      | nil => exact fun t => ⟨t.pwr, rfl⟩
      | cons d l ih =>
        intro t
        obtain ⟨p, h⟩ := State.startWake_spec t d
        obtain ⟨q, h'⟩ := ih (t.startWake d)
        exact ⟨q, by rw [List.foldl_cons, h', h]⟩
    exact fold ds s

/-- A call of a domain changes the power sequencer alone. -/
theorem State.callDom_spec (s : State) (d k : Nat) : ∃ p, s.callDom d k = { s with pwr := p } := by
  have key : ∀ t : State, (∃ p, t = { s with pwr := p }) →
      ∃ p, (if t.avail d then t else t.wakeFor [d] k) = { s with pwr := p } := by
    rintro t ⟨p, rfl⟩
    split
    · exact ⟨p, rfl⟩
    · obtain ⟨q, h⟩ := State.wakeFor_spec { s with pwr := p } [d] k
      exact ⟨q, h⟩
  simp only [State.callDom]
  refine key _ ?_
  split <;> exact ⟨_, rfl⟩

/-- A call of a domain that is ON, outside a sleep request, changes nothing. -/
theorem State.callDom_of_on (s : State) (d k : Nat) (h : s.domSt d = 0) (hp : s.pwr.phase = 0) : s.callDom d k = s := by
  have hv : (s.onPwr fun p => if p.phase == 1 then { p with votes := maskSet p.votes d false } else p) = s := by
    simp [State.onPwr, hp]
  simp only [State.callDom, hv]
  simp [h, State.avail, State.committing, hp]

/-! ### Counting, recording and raising (R398, R427 to R430) -/

theorem State.clsCount_eq (s : State) (cls : Nat) :
    s.clsCount cls = { s with saf := { s.saf with cls := SMap.upd 0 s.saf.cls cls (satInc 32) } } := rfl

/-- A record in the error log leaves the class counters. -/
@[simp] theorem Saf.put_cls (x : Saf) (k : Nat) (r : BitVec 64 × BitVec 64) : (x.put k r).cls = x.cls := by
  simp only [Saf.put]
  split
  · rfl
  · split <;> rfl

/-- A record is one more count of its class and changes nothing but the error log. -/
theorem State.logAt_spec (s : State) (w : BitVec 64) (cls : Nat) (i : Option Nat) (k o d : Nat) :
    ∃ x, s.logAt w cls i k o d = { s with saf := x } ∧ x.cls = SMap.upd 0 s.saf.cls cls (satInc 32) := by
  simp only [State.logAt]
  split
  · exact ⟨_, State.clsCount_eq s cls, rfl⟩
  · exact ⟨_, rfl, by simp [State.clsCount, State.onSaf]⟩

/-- A detection made now draws one free value for its stamp. -/
theorem State.logErr_spec (s : State) (cls : Nat) (i : Option Nat) (k o d : Nat) :
    ∃ x, s.logErr cls i k o d = { s with saf := x, free := s.free + 1 } ∧
      x.cls = SMap.upd 0 s.saf.cls cls (satInc 32) := by
  obtain ⟨x, h, hx⟩ := State.logAt_spec s s.stampSclk cls i k o d
  exact ⟨x, by simp only [State.logErr, h, State.drawn], hx⟩

/-- Raising a latch changes it, and may wake the confluence. -/
theorem State.latchRaise_spec (s : State) (n : Nat) (t : Tick) :
    ∃ c p, s.latchRaise n t = { s with cfl := c, pwr := p } := by
  obtain ⟨p, h⟩ := State.callDom_spec
    (s.onLatch n fun l => if l.valid then l else { valid := true, stamp := t, kind := .fire }) dCFL 1
  exact ⟨_, p, h⟩

/-- Raising a self-source changes its latch and may wake the confluence, or changes what is raised at READY. -/
theorem State.raiseSelf_spec (s : State) (n : Nat) :
    ∃ b c k p, s.raiseSelf n = { s with boot := b, cfl := c, free := k, pwr := p } := by
  simp only [State.raiseSelf]
  split
  · exact ⟨_, s.cfl, s.free, s.pwr, rfl⟩
  · obtain ⟨c, p, h⟩ := State.latchRaise_spec s n s.stampSclk
    exact ⟨s.boot, c, s.free + 1, p, by simp only [h, State.drawn]⟩

/-- Raising a self-source leaves MODE and the pins. -/
theorem State.raiseSelf_mode (s : State) (n : Nat) :
    (s.raiseSelf n).boot.mode = s.boot.mode ∧ (s.raiseSelf n).boot.crst = s.boot.crst ∧
      (s.raiseSelf n).boot.step = s.boot.step := by
  simp only [State.raiseSelf]
  split
  · exact ⟨rfl, rfl, rfl⟩
  · obtain ⟨c, p, h⟩ := State.latchRaise_spec s n s.stampSclk
    rw [h]
    exact ⟨rfl, rfl, rfl⟩

/-- A latch that is set keeps its stamp when it is raised again; an empty one takes the new stamp (R119). -/
@[simp] theorem State.latchRaise_latch (s : State) (n : Nat) (t : Tick) (m : Nat) :
    (s.latchRaise n t).latch m =
      if m = n then (if (s.latch n).valid then s.latch n else { valid := true, stamp := t, kind := .fire })
      else s.latch m := by
  obtain ⟨p, h⟩ := State.callDom_spec
    (s.onLatch n fun l => if l.valid then l else { valid := true, stamp := t, kind := .fire }) dCFL 1
  rw [State.latchRaise, h]
  exact State.onLatch_latch s n _ m

/-- An operational class: one count, a record and its self-source. -/
theorem State.note_spec (s : State) (cls self : Nat) (i : Option Nat) (k o d : Nat) :
    ∃ x b c n p, s.note cls self i k o d = { s with saf := x, boot := b, cfl := c, free := n, pwr := p } ∧
      x.cls = SMap.upd 0 s.saf.cls cls (satInc 32) := by
  obtain ⟨x, h, hx⟩ := State.logErr_spec s cls i k o d
  simp only [State.note, h]
  split
  · exact ⟨x, s.boot, s.cfl, s.free + 1, s.pwr, rfl, hx⟩
  · obtain ⟨b, c, n, p, hr⟩ := State.raiseSelf_spec { s with saf := x, free := s.free + 1 } self
    exact ⟨x, b, c, n, p, hr, hx⟩

/-- An operational class counts once. -/
theorem State.note_counts (s : State) (cls self : Nat) (i : Option Nat) (k o d : Nat) :
    SMap.get 0 (s.note cls self i k o d).saf.cls cls = satInc 32 (SMap.get 0 s.saf.cls cls) := by
  obtain ⟨x, b, c, n, p, h, hx⟩ := State.note_spec s cls self i k o d
  rw [h]
  show SMap.get 0 x.cls cls = _
  rw [hx]
  simp

/-- The answers to waiting doorbell writes change the doorbell ports alone. -/
theorem State.failDbWait_spec (s : State) : ∃ c, s.failDbWait = { s with cfl := c } := by
  have fold : ∀ (l : List DbWait) (t : State), ∃ c,
      l.foldl (fun t w => t.dbAnswer w.req.port w.req.tag true) t = { t with cfl := c } := by
    intro l
    induction l with
    | nil => exact fun t => ⟨t.cfl, rfl⟩
    | cons w l ih =>
      intro t
      obtain ⟨c, h⟩ := ih (t.dbAnswer w.req.port w.req.tag true)
      exact ⟨c, by rw [List.foldl_cons, h]; rfl⟩
  obtain ⟨c, h⟩ := fold s.cfl.dbWait s
  exact ⟨_, by simp only [State.failDbWait, h]; rfl⟩

/-- The fatal sequence has begun: with this class, unless another has begun it in the same cycle (R402, R403). -/
theorem State.goFatal_spec (s : State) (cls : Nat) :
    ∃ x f l p c, s.goFatal cls = { s with saf := x, fatal := f, lports := l, ports := p, cfl := c } ∧
      x.cls = s.saf.cls ∧ x.fatalOut = true ∧ x.rails = .error ∧ f.inSeq = true ∧
      (s.fatal.inSeq = false → f.cls = cls ∧ f.tick = s.now) := by
  simp only [State.goFatal]
  split
  · exact ⟨_, s.fatal, s.lports, s.ports, s.cfl, rfl, rfl, rfl, rfl, ‹_›, fun h => absurd h (by simp [‹s.fatal.inSeq = true›])⟩
  obtain ⟨c, h⟩ := State.failDbWait_spec
    (((s.onSaf fun x => { x with
        sig := x.sig ||| sigBit cls, fatalSig := x.fatalSig ||| sigBit cls, rails := .error, fatalOut := true }).onFatal
      fun f => { f with inSeq := true, tick := s.now, cls := cls }).allIdle.dropDownstream)
  exact ⟨_, _, _, _, c, h, rfl, rfl, rfl, rfl, fun _ => ⟨rfl, rfl⟩⟩

/-- What a reaction can change (R398). -/
theorem State.react_spec (s : State) (cls : Nat) :
    ∃ x b c n f l p w, s.react cls = { s with
        saf := x, boot := b, cfl := c, free := n, fatal := f, lports := l, ports := p, pwr := w } ∧ x.cls = s.saf.cls := by
  simp only [State.react]
  split
  · exact ⟨s.saf, s.boot, s.cfl, s.free, s.fatal, s.lports, s.ports, s.pwr, rfl, rfl⟩
  · obtain ⟨b, c, n, w, h⟩ := State.raiseSelf_spec s 1000
    exact ⟨s.saf, b, c, n, s.fatal, s.lports, s.ports, w, h, rfl⟩
  · obtain ⟨b, c, n, w, h⟩ := State.raiseSelf_spec s 1000
    rw [h]
    exact ⟨_, b, c, n, s.fatal, s.lports, s.ports, w, rfl, rfl⟩
  · obtain ⟨b, c, n, w, h⟩ := State.raiseSelf_spec s 1000
    rw [h]
    obtain ⟨x, f, l, p, c', h', hx, -⟩ := State.goFatal_spec { s with boot := b, cfl := c, free := n, pwr := w } cls
    exact ⟨x, b, c', n, f, l, p, w, h', hx⟩

/-- A failure class: one count, a record and its reaction. -/
theorem State.fail_spec (s : State) (cls : Nat) (i : Option Nat) (k o d : Nat) :
    ∃ x b c n f l p w, s.fail cls i k o d = { s with
        saf := x, boot := b, cfl := c, free := n, fatal := f, lports := l, ports := p, pwr := w } ∧
      x.cls = SMap.upd 0 s.saf.cls cls (satInc 32) := by
  obtain ⟨x, h, hx⟩ := State.logErr_spec s cls i k o d
  simp only [State.fail, h]
  split
  · exact ⟨x, s.boot, s.cfl, s.free + 1, s.fatal, s.lports, s.ports, s.pwr, rfl, hx⟩
  · obtain ⟨y, b, c, n, f, l, p, w, h', hy⟩ := State.react_spec { s with saf := x, free := s.free + 1 } cls
    exact ⟨y, b, c, n, f, l, p, w, h', hy.trans hx⟩

/-- A failure class counts once. -/
theorem State.fail_counts (s : State) (cls : Nat) (i : Option Nat) (k o d : Nat) :
    SMap.get 0 (s.fail cls i k o d).saf.cls cls = satInc 32 (SMap.get 0 s.saf.cls cls) := by
  obtain ⟨x, b, c, n, f, l, p, w, h, hx⟩ := State.fail_spec s cls i k o d
  rw [h]
  show SMap.get 0 x.cls cls = _
  rw [hx]
  simp

theorem State.late_eq (s : State) :
    s.late = { s with fatal := { s.fatal with late := satInc 32 s.fatal.late } } := rfl

@[simp] theorem State.unlessFatal_of (s : State) (f : State → State) (h : s.fatal.inSeq = false) :
    s.unlessFatal f = f s := by simp [State.unlessFatal, h]

@[simp] theorem State.unlessFatal_in (s : State) (f : State → State) (h : s.fatal.inSeq = true) :
    s.unlessFatal f = s := by simp [State.unlessFatal, h]

/-! ### Sending (R339, R341, R346) -/

/-- Closing a batch changes its port alone. -/
theorem State.closeBatch_spec (s : State) (p : Nat) :
    ∃ l, s.closeBatch p = { s with lports := l } := by
  simp only [State.closeBatch]
  split
  · exact ⟨s.lports, rfl⟩
  · exact ⟨_, rfl⟩

/-- A token that an ALARM takes changes its port alone (R363). -/
theorem State.tokened_spec (s : State) (p : Nat) (f : Frame) : ∃ a, (s.tokened p f).1 = { s with lauth := a } := by
  simp only [State.tokened]
  split <;> exact ⟨_, rfl⟩

/-- Sending one frame changes link ports alone. -/
theorem State.transmit_spec (s : State) (p : Nat) (f : Frame) :
    ∃ l a, s.transmit p f = { s with lports := l, lauth := a } := by
  simp only [State.transmit]
  obtain ⟨a₀, h₀⟩ := State.tokened_spec s p f
  have key : ∀ (u : Bool) (t : State), (∃ l a, t = { s with lports := l, lauth := a }) →
      ∃ l a, (if u || (t.lport p).batch.length ≥ 32 then t.closeBatch p else t) =
        { s with lports := l, lauth := a } := by
    rintro u t ⟨l, a, rfl⟩
    split
    · obtain ⟨l', h⟩ := State.closeBatch_spec { s with lports := l, lauth := a } p
      exact ⟨l', a, h⟩
    · exact ⟨l, a, rfl⟩
  refine key _ _ ?_
  rw [h₀]
  split
  · exact ⟨_, _, rfl⟩
  · split
    · exact ⟨_, _, rfl⟩
    · exact ⟨_, a₀, rfl⟩

/-- A frame for a port changes the link ports, and may wake the port's domain. -/
theorem State.sendOn_spec (s : State) (p : Nat) (f : Frame) :
    ∃ l a w, s.sendOn p f = { s with lports := l, lauth := a, pwr := w } := by
  obtain ⟨w, hw⟩ := State.callDom_spec s (dLNK p) 3
  simp only [State.sendOn]
  split
  · exact ⟨s.lports, s.lauth, s.pwr, rfl⟩
  · rw [hw]
    split
    · obtain ⟨l, a, h⟩ := State.transmit_spec { s with pwr := w } p f
      exact ⟨l, a, w, h⟩
    · exact ⟨_, s.lauth, w, rfl⟩

theorem State.sendTo_spec (s : State) (d : Nat) (f : Frame) :
    ∃ l a w, s.sendTo d f = { s with lports := l, lauth := a, pwr := w } := by
  simp only [State.sendTo]
  split
  · exact State.sendOn_spec s _ f
  · exact ⟨s.lports, s.lauth, s.pwr, rfl⟩

/-- A fold of steps that change link ports and wake domains changes nothing else. -/
theorem State.foldl_links {α : Type} (g : State → α → State)
    (h : ∀ s x, ∃ l a w, g s x = { s with lports := l, lauth := a, pwr := w }) (xs : List α) (s : State) :
    ∃ l a w, xs.foldl g s = { s with lports := l, lauth := a, pwr := w } := by
  induction xs generalizing s with
  | nil => exact ⟨s.lports, s.lauth, s.pwr, rfl⟩
  | cons x xs ih =>
    obtain ⟨l, a, w, hx⟩ := h s x
    obtain ⟨l', a', w', hi⟩ := ih (g s x)
    exact ⟨l', a', w', by rw [List.foldl_cons, hi, hx]⟩

theorem State.flood_spec (s : State) (e : Option Nat) (f : Frame) :
    ∃ l a w, s.flood e f = { s with lports := l, lauth := a, pwr := w } :=
  State.foldl_links _ (fun t p => State.sendOn_spec t p _) _ s

/-- An E2E frame takes its number and is kept (R341). -/
theorem State.sendE2e_spec (s : State) (d : Nat) (u : Bool) (b : FrameBody) :
    ∃ l a w e, s.sendE2e d u b = { s with lports := l, lauth := a, pwr := w, cas := { s.cas with e2e := e } } := by
  simp only [State.sendE2e]
  split
  · obtain ⟨l, a, w, h⟩ := State.sendTo_spec
      (s.onE2e d fun x => { x with
        next := (x.next + 1) % 65536, kept := x.kept ++ [s.frame d u (s.e2eOf d).next b] }) d
      (s.frame d u (s.e2eOf d).next b)
    exact ⟨l, a, w, _, h⟩
  · exact ⟨s.lports, s.lauth, s.pwr, _, rfl⟩

/-! ### Work on domains that are all on (R376, R377) -/

/-- A domain that is ON outside a commit serves work. -/
theorem State.avail_of_on (s : State) (d : Nat) (h : s.pwr.dom = []) (hp : s.pwr.phase = 0) : s.avail d = true := by
  simp [State.avail, State.domSt, State.committing, h, hp]

theorem State.allAvail_of_on (s : State) (ds : List Nat) (h : s.pwr.dom = []) (hp : s.pwr.phase = 0) :
    s.allAvail ds = true := by
  simp only [State.allAvail, List.all_eq_true]
  exact fun d _ => State.avail_of_on s d h hp

/-- Work that reaches domains that are on changes nothing of them. -/
theorem State.touch_of_on (s : State) (ds : List Nat) (h : s.pwr.dom = []) (hp : s.pwr.phase = 0) : s.touch ds = s := by
  induction ds with
  | nil => rfl
  | cons d ds ih =>
    have hv : (s.onPwr fun p => if p.phase == 1 then { p with votes := maskSet p.votes d false } else p) = s := by
      simp [State.onPwr, hp]
    have hd : s.endDoze d = s := by simp [State.endDoze, State.domSt, h]
    simp only [State.touch, List.foldl_cons] at ih ⊢
    rw [hv, hd]
    exact ih

theorem State.withDomains_of_on (s : State) (ds : List Nat) (k : Nat) (f : State → State) (h : s.pwr.dom = [])
    (hp : s.pwr.phase = 0) : s.withDomains ds k f = f s := by
  simp [State.withDomains, State.touch_of_on s ds h hp, State.allAvail_of_on s ds h hp]

/-! ### The queues of the Weir (R178) -/

/-- Writing a queue changes the Weir alone. -/
theorem State.setQueue_spec (s : State) (o p : Nat) (q : List Nat) : ∃ w, s.setQueue o p q = { s with weir := w } :=
  ⟨_, rfl⟩

/-- The head to tail list of an owner after one is written. -/
@[simp] theorem State.setQueue_queue (s : State) (o p : Nat) (q : List Nat) (o' p' : Nat) :
    (s.setQueue o p q).queue o' p' = if o' = o ∧ p' = p then q else s.queue o' p' := by
  show SMap.get [] (SMap.get ({} : OwnerQ) (SMap.upd {} s.weir.queues o fun x =>
    { x with qs := SMap.set [] x.qs p q }) o').qs p' = _
  by_cases h : o' = o
  · subst h
    by_cases hp : p' = p <;> simp [hp, State.queue, State.ownerQ]
  · simp [h, State.queue, State.ownerQ]

@[simp] theorem State.setLink_entry (s : State) (n : Nat) (b : Bool) (k m : Nat) :
    (s.setLink n b k).entry m = s.entry m := rfl

@[simp] theorem State.setLink_plaOf (s : State) (n : Nat) (b : Bool) (k m : Nat) :
    (s.setLink n b k).plaOf m =
      if m = n then { s.plaOf n with linked := b, next := BitVec.ofNat 21 k } else s.plaOf m :=
  State.onPla_plaOf s n _ m

/-- A tail link in a queue of this device changes links and queues, no entry (R178). -/
theorem State.tailLink_entry (s : State) (n : Nat) (h : s.ownerOf (s.entry n) ≠ none) (m : Nat) :
    (s.tailLink n).entry m = s.entry m := by
  simp only [State.tailLink]
  split
  · exact absurd ‹_› h
  · split
    · rfl
    · split <;> rfl

/-- A head link in a queue of this device changes links and queues, no entry (R149). -/
theorem State.headLink_entry (s : State) (n : Nat) (h : s.ownerOf (s.entry n) ≠ none) (m : Nat) :
    (s.headLink n).entry m = s.entry m := by
  simp only [State.headLink]
  split
  · exact absurd ‹_› h
  · split <;> rfl

/-- An unlink changes no entry (R179). -/
theorem State.unlink_entry (s : State) (n m : Nat) : (s.unlink n).entry m = s.entry m := by
  simp only [State.unlink]
  split
  · split
    · rfl
    · split
      · rfl
      · split <;> rfl
  · rfl

end Sys2Proof.Machine
end

