-- ==== Sys2Proof/WellFormed.lean ====
section
/-!
DEFINITION. Well-formed commands: operands that a sender of the block can give, beyond what their widths say.
-/

namespace Sys2Proof

/-- A page is that of a native slice, 1 to 3,840 (R275, R441). -/
def RegOp.pageOk (r : RegOp) : Bool :=
  match r.page with
  | none => true
  | some p => 1 ≤ p.toNat && p.toNat ≤ 3840

/-- The register access a command makes, where it makes one through a bank (R446). -/
def Instr.regOp? : Instr → Option RegOp
  | .srcFire r => some r
  | .srcCfgLoWrite r _ => some r
  | .srcCfgCommit r _ => some r
  | .srcEnWrite r _ => some r
  | .selSrcWrite r _ => some r
  | .selTgtWrite r _ => some r
  | .selLaneWrite r _ => some r
  | .tgtDlvCfgWrite r _ => some r
  | .groupMemberAdd r _ => some r
  | .groupMemberRemove r _ => some r
  | .smapLookup r _ => some r
  | .tbCountRead r _ => some r
  | .slcLogBaseWrite r _ => some r
  | .stage r => some r
  | .commit r => some r
  | .discard r => some r
  | .shareCommit r => some r
  | .activate r => some r
  | .quiesce r => some r
  | .reset r => some r
  | .forceReset r => some r
  | .freeze r => some r
  | .save r => some r
  | .restore r => some r
  | .thaw r => some r
  | .safSigClear r _ => some r
  | .safTmrWrite r _ => some r
  | .logTailWrite r _ => some r
  | .mailboxClaim r => some r
  | .mailboxRelease r => some r
  | .versions r => some r
  | .attest r => some r
  | .certs r => some r
  | .prodPubkey r => some r
  | .levelRequest r _ => some r
  | .plFloorWrite r _ => some r
  | .sleepRequest r _ => some r
  | .holdRelease r _ => some r
  | .holdSet r _ => some r
  | .apply r => some r
  | .retrain r => some r
  | .injOne r => some r
  | .prbsStatusRead r => some r
  | .one r => some r
  | .aoPowerOn | .coldReset _ | .coldStart _ | .cascadeJoinTimeout | .warmReset _ | .warmResetRelease _
  | .portReset _ | .portResetRelease _ | .awakeChange _ _ | .clockFault _ _ | .debugEnableChange _
  | .doorbellSingle _ | .doorbellRange _ | .doorbellRead _ | .windowEntryGrant | .admissionCycle
  | .spillwayRelease | .starvationGuard | .firingResolution _ | .wiredCapture _ _ | .dormantWakeLatch _ _
  | .registerWrite _ | .weirPass _ | .weirSelftestEnd _ _ | .shadowCheck _ _ | .linkStoreRebuildEnd
  | .wheelSlotVisit _ | .present _ | .revoke _ | .take _ | .decline _ | .complete _ | .declineHoldExpiry _
  | .windowedMaskExpiry _ | .presentationTimeout _ | .presentationRetire _ | .retiredTagFree _ _
  | .downstreamStall _ | .scrubStep _ _ | .rebuildStep _ | .fatalDumpEnd _ _ | .logWriteResponse _
  | .logBaseSwitch _ | .stagingEnd _ | .structureEpoch | .creditEpoch | .quiesceDrainComplete _
  | .slicePurgeEnd _ | .saveEnd _ _ | .restoreEnd _ _ | .load _ _ | .invalidateSlot _ _ | .invalidateRoot _
  | .keyStoreCommitEnd | .stewardWatchdogExpiry | .traceRd _ | .cntRd _ | .stwHalt | .stwStep | .aryRd _ _
  | .aryWr _ _ _ | .mailboxCommandEnd _ | .vgoodReturn _ | .vgoodTimeout | .domainVote _ | .prepareTimeout
  | .pwrAck _ | .dozeRegate _ | .domainWake _ | .wakeTimeout _ | .ageingReading _ | .ageingRestep _
  | .aoclkCalibration _ | .markerSend _ | .marker _ _ _ | .time _ _ | .markerLossTimeout | .holdoverExpiry
  | .pllLost | .countMismatch _ | .rateCheck _ | .laneLoss _ | .ts _ _ | .trainingAttemptEnd _ _ _
  | .failedLaneRetry _ | .driftGuard _ _ | .alignPeriod _ | .align _ _ _ | .laneDown _ _ _ _ | .downAck _ _
  | .laneDownRepeat _ | .downAckTimeout _ | .up _ _ | .electricalIdleEntry _ | .eios _ | .electricalIdleExit _
  | .squelchBurst _ | .idleExitTimeout _ | .prbsPeriodicInject _ | .event _ _ _ _ _ | .proxyOpen _ _ _ _ _
  | .proxyCfg _ _ _ _ | .proxyClose _ _ _ | .proxyCloseDiscard _ _ _ | .proxyHandoff _ _ _ _ _
  | .handoffSelectTimeout _ | .opened _ _ _ | .refused _ _ _ _ | .returned _ _ _ _ _ | .handback _ _ _ _ _
  | .summarySend | .summary _ _ _ | .alarm _ _ _ _ _ | .quarantineAlarmRepeat _ | .topoDiscover _ _
  | .topoReport _ _ _ _ | .topoReady _ _ | .heartbeatSend | .topoHeartbeat _ _ | .headwaterTakeover
  | .topoMap _ _ | .topoExclude _ | .topoQuarantine _ | .batchClose _ | .batchTag _ _ _ _ _ | .ack _ _
  | .replayTimeout _ | .hello _ _ | .cert _ _ | .keyx _ _ | .confirm _ _ | .portRetry _ | .registerRead _
  | .alwaysOnReset | .blockLock _ | .prbsSync _ | .prbsSyncLoss _ | .pllRelock | .testLogicReset => none

/-- A power domain of R379. -/
def domOk (d : BitVec 5) : Bool := d.toNat < 28

/-- A wired line that has a sampler: the sovereign lines 0 to 13 and the lines 16 to 999 (R38, R114). -/
def lineOk (n : BitVec 10) : Bool := n.toNat < 14 || (16 ≤ n.toNat && n.toNat ≤ 999)

/-- A physical bank of an array: 33 and the spare (R160). -/
def bankOk (b : BitVec 6) : Bool := b.toNat < 34

/-- Banks that a self-test or a scrub names. -/
def SelfTest.ok (t : SelfTest) : Bool := t.ssaBad.all bankOk && t.plaBad.all bankOk

/-- A counter register that exists: a context has three (R249). -/
def CntSel.ok : CntSel → Bool
  | .context _ n => n.toNat < 3
  | _ => true

/-- A watched input of DORMANT that exists. -/
def WakeInput.ok : WakeInput → Bool
  | .wired n _ => lineOk n
  | _ => true

/-- The operands of a command that its register access does not name. -/
def Instr.operandsOk : Instr → Bool
  | .coldStart e => e.test.ok
  | .warmResetRelease t => t.ok
  | .wiredCapture n _ => lineOk n
  | .dormantWakeLatch w _ => w.ok
  | .scrubStep a b => (a.words ++ b.words).all fun w => bankOk w.1
  | .load _ beats => beats ≠ []
  | .invalidateSlot _ n => 1 ≤ n
  | .invalidateRoot n => 1 ≤ n
  | .cntRd c => c.ok
  | .domainVote d => domOk d
  | .dozeRegate d => domOk d
  | .wakeTimeout d => domOk d
  | .summary _ _ l => l.length ≤ 8
  | .batchTag _ l _ _ _ => l.length ≤ 32
  | _ => true

/-- A well-formed command. -/
def Instr.wf (c : Instr) : Bool :=
  c.operandsOk &&
  match c.regOp? with
  | some r => r.pageOk
  | none => true

end Sys2Proof
end

