-- ==== Sys2Proof/Laws/PerInstr.lean ====
section
/-!
SUPPORT. One lemma per command: a well-formed command that makes a register access through a page names the page of a
native slice (R275, R441).
-/

namespace Sys2Proof.Laws.PageBound

/-- A well-formed command's page is that of a native slice. -/
def Statement (i : Instr) : Prop :=
  i.wf = true → ∀ r, i.regOp? = some r → ∀ p, r.page = some p → 1 ≤ p.toNat ∧ p.toNat ≤ 3840

/-- A command without a register access of its own. -/
theorem ofNone {i : Instr} (h : i.regOp? = none) : Statement i := by
  intro _ r hr
  rw [h] at hr
  cases hr

/-- A command with a register access. -/
theorem ofSome {i : Instr} {r : RegOp} (h : i.regOp? = some r) : Statement i := by
  intro hw q hq p hp
  rw [h] at hq
  cases hq
  simp only [Instr.wf, h, RegOp.pageOk, hp, Bool.and_eq_true, decide_eq_true_eq] at hw
  exact hw.2

theorem aoPowerOn : Statement (.aoPowerOn) := ofNone rfl
theorem coldReset (width : Nat) : Statement (.coldReset width) := ofNone rfl
theorem coldStart (e : StartEnv) : Statement (.coldStart e) := ofNone rfl
theorem cascadeJoinTimeout : Statement (.cascadeJoinTimeout) := ofNone rfl
theorem warmReset (width : Nat) : Statement (.warmReset width) := ofNone rfl
theorem warmResetRelease (t : SelfTest) : Statement (.warmResetRelease t) := ofNone rfl
theorem portReset (n : BitVec 4) : Statement (.portReset n) := ofNone rfl
theorem portResetRelease (n : BitVec 4) : Statement (.portResetRelease n) := ofNone rfl
theorem awakeChange (n : BitVec 4) (mask : BitVec 32) : Statement (.awakeChange n mask) := ofNone rfl
theorem clockFault (clk : ClockId) (stopped : Bool) : Statement (.clockFault clk stopped) := ofNone rfl
theorem debugEnableChange (en : BitVec 4) : Statement (.debugEnableChange en) := ofNone rfl
theorem doorbellSingle (r : DbReq) : Statement (.doorbellSingle r) := ofNone rfl
theorem doorbellRange (r : DbReq) : Statement (.doorbellRange r) := ofNone rfl
theorem doorbellRead (r : DbReq) : Statement (.doorbellRead r) := ofNone rfl
theorem windowEntryGrant : Statement (.windowEntryGrant) := ofNone rfl
theorem admissionCycle : Statement (.admissionCycle) := ofNone rfl
theorem spillwayRelease : Statement (.spillwayRelease) := ofNone rfl
theorem starvationGuard : Statement (.starvationGuard) := ofNone rfl
theorem firingResolution (r : Resolution) : Statement (.firingResolution r) := ofNone rfl
theorem wiredCapture (line : BitVec 10) (level : Bool) : Statement (.wiredCapture line level) := ofNone rfl
theorem dormantWakeLatch (w : WakeInput) (refclk : Bool) : Statement (.dormantWakeLatch w refclk) := ofNone rfl
theorem srcFire (r : RegOp) : Statement (.srcFire r) := ofSome rfl
theorem srcCfgLoWrite (r : RegOp) (v : BitVec 32) : Statement (.srcCfgLoWrite r v) := ofSome rfl
theorem srcCfgCommit (r : RegOp) (d : CfgData) : Statement (.srcCfgCommit r d) := ofSome rfl
theorem srcEnWrite (r : RegOp) (en : Bool) : Statement (.srcEnWrite r en) := ofSome rfl
theorem selSrcWrite (r : RegOp) (v : BitVec 32) : Statement (.selSrcWrite r v) := ofSome rfl
theorem selTgtWrite (r : RegOp) (v : BitVec 32) : Statement (.selTgtWrite r v) := ofSome rfl
theorem selLaneWrite (r : RegOp) (v : BitVec 32) : Statement (.selLaneWrite r v) := ofSome rfl
theorem tgtDlvCfgWrite (r : RegOp) (v : BitVec 32) : Statement (.tgtDlvCfgWrite r v) := ofSome rfl
theorem groupMemberAdd (r : RegOp) (m : BitVec 13) : Statement (.groupMemberAdd r m) := ofSome rfl
theorem groupMemberRemove (r : RegOp) (m : BitVec 13) : Statement (.groupMemberRemove r m) := ofSome rfl
theorem smapLookup (r : RegOp) (pid : BitVec 20) : Statement (.smapLookup r pid) := ofSome rfl
theorem tbCountRead (r : RegOp) (part : Part) : Statement (.tbCountRead r part) := ofSome rfl
theorem registerWrite (q : RawReq) : Statement (.registerWrite q) := ofNone rfl
theorem weirPass (o : PassOp) : Statement (.weirPass o) := ofNone rfl
theorem weirSelftestEnd (aPass : Bool) (bPass : Bool) : Statement (.weirSelftestEnd aPass bPass) := ofNone rfl
theorem shadowCheck (ctx : BitVec 10) (agree : Bool) : Statement (.shadowCheck ctx agree) := ofNone rfl
theorem linkStoreRebuildEnd : Statement (.linkStoreRebuildEnd) := ofNone rfl
theorem wheelSlotVisit (v : SlotVisit) : Statement (.wheelSlotVisit v) := ofNone rfl
theorem present (n : BitVec 4) : Statement (.present n) := ofNone rfl
theorem revoke (n : BitVec 4) : Statement (.revoke n) := ofNone rfl
theorem take (u : UpMsg) : Statement (.take u) := ofNone rfl
theorem decline (u : UpMsg) : Statement (.decline u) := ofNone rfl
theorem complete (u : UpMsg) : Statement (.complete u) := ofNone rfl
theorem declineHoldExpiry (c : BitVec 10) : Statement (.declineHoldExpiry c) := ofNone rfl
theorem windowedMaskExpiry (src : BitVec 21) : Statement (.windowedMaskExpiry src) := ofNone rfl
theorem presentationTimeout (c : BitVec 10) : Statement (.presentationTimeout c) := ofNone rfl
theorem presentationRetire (c : BitVec 10) : Statement (.presentationRetire c) := ofNone rfl
theorem retiredTagFree (n : BitVec 4) (tag : BitVec 12) : Statement (.retiredTagFree n tag) := ofNone rfl
theorem downstreamStall (n : BitVec 4) : Statement (.downstreamStall n) := ofNone rfl
theorem scrubStep (ssa : RowRead) (pla : RowRead) : Statement (.scrubStep ssa pla) := ofNone rfl
theorem rebuildStep (pla : Bool) : Statement (.rebuildStep pla) := ofNone rfl
theorem fatalDumpEnd (m : MemEnd) (cycles : BitVec 23) : Statement (.fatalDumpEnd m cycles) := ofNone rfl
theorem logWriteResponse (m : MemEnd) : Statement (.logWriteResponse m) := ofNone rfl
theorem slcLogBaseWrite (r : RegOp) (v : BitVec 64) : Statement (.slcLogBaseWrite r v) := ofSome rfl
theorem logBaseSwitch (slice : BitVec 12) : Statement (.logBaseSwitch slice) := ofNone rfl
theorem stage (r : RegOp) : Statement (.stage r) := ofSome rfl
theorem stagingEnd (r : StagedRead) : Statement (.stagingEnd r) := ofNone rfl
theorem commit (r : RegOp) : Statement (.commit r) := ofSome rfl
theorem discard (r : RegOp) : Statement (.discard r) := ofSome rfl
theorem structureEpoch : Statement (.structureEpoch) := ofNone rfl
theorem shareCommit (r : RegOp) : Statement (.shareCommit r) := ofSome rfl
theorem creditEpoch : Statement (.creditEpoch) := ofNone rfl
theorem activate (r : RegOp) : Statement (.activate r) := ofSome rfl
theorem quiesce (r : RegOp) : Statement (.quiesce r) := ofSome rfl
theorem quiesceDrainComplete (slice : BitVec 12) : Statement (.quiesceDrainComplete slice) := ofNone rfl
theorem reset (r : RegOp) : Statement (.reset r) := ofSome rfl
theorem forceReset (r : RegOp) : Statement (.forceReset r) := ofSome rfl
theorem slicePurgeEnd (slice : BitVec 12) : Statement (.slicePurgeEnd slice) := ofNone rfl
theorem freeze (r : RegOp) : Statement (.freeze r) := ofSome rfl
theorem save (r : RegOp) : Statement (.save r) := ofSome rfl
theorem saveEnd (slice : BitVec 12) (m : MemEnd) : Statement (.saveEnd slice m) := ofNone rfl
theorem restore (r : RegOp) : Statement (.restore r) := ofSome rfl
theorem restoreEnd (slice : BitVec 12) (r : RestoreRead) : Statement (.restoreEnd slice r) := ofNone rfl
theorem thaw (r : RegOp) : Statement (.thaw r) := ofSome rfl
theorem load (k : KeyDest) (beats : List (BitVec 64)) : Statement (.load k beats) := ofNone rfl
theorem invalidateSlot (slot : BitVec 4) (beats : Nat) : Statement (.invalidateSlot slot beats) := ofNone rfl
theorem invalidateRoot (beats : Nat) : Statement (.invalidateRoot beats) := ofNone rfl
theorem keyStoreCommitEnd : Statement (.keyStoreCommitEnd) := ofNone rfl
theorem stewardWatchdogExpiry : Statement (.stewardWatchdogExpiry) := ofNone rfl
theorem safSigClear (r : RegOp) (v : BitVec 32) : Statement (.safSigClear r v) := ofSome rfl
theorem safTmrWrite (r : RegOp) (v : BitVec 32) : Statement (.safTmrWrite r v) := ofSome rfl
theorem logTailWrite (r : RegOp) (v : BitVec 32) : Statement (.logTailWrite r v) := ofSome rfl
theorem traceRd (idx : BitVec 12) : Statement (.traceRd idx) := ofNone rfl
theorem cntRd (c : CntSel) : Statement (.cntRd c) := ofNone rfl
theorem stwHalt : Statement (.stwHalt) := ofNone rfl
theorem stwStep : Statement (.stwStep) := ofNone rfl
theorem aryRd (pla : Bool) (src : BitVec 21) : Statement (.aryRd pla src) := ofNone rfl
theorem aryWr (pla : Bool) (src : BitVec 21) (v : BitVec 64) : Statement (.aryWr pla src v) := ofNone rfl
theorem mailboxClaim (r : RegOp) : Statement (.mailboxClaim r) := ofSome rfl
theorem mailboxRelease (r : RegOp) : Statement (.mailboxRelease r) := ofSome rfl
theorem versions (r : RegOp) : Statement (.versions r) := ofSome rfl
theorem attest (r : RegOp) : Statement (.attest r) := ofSome rfl
theorem certs (r : RegOp) : Statement (.certs r) := ofSome rfl
theorem prodPubkey (r : RegOp) : Statement (.prodPubkey r) := ofSome rfl
theorem mailboxCommandEnd (e : MailEnv) : Statement (.mailboxCommandEnd e) := ofNone rfl
theorem levelRequest (r : RegOp) (target : BitVec 2) : Statement (.levelRequest r target) := ofSome rfl
theorem plFloorWrite (r : RegOp) (floor : BitVec 2) : Statement (.plFloorWrite r floor) := ofSome rfl
theorem vgoodReturn (ms : List Margins) : Statement (.vgoodReturn ms) := ofNone rfl
theorem vgoodTimeout : Statement (.vgoodTimeout) := ofNone rfl
theorem sleepRequest (r : RegOp) (v : BitVec 64) : Statement (.sleepRequest r v) := ofSome rfl
theorem domainVote (d : BitVec 5) : Statement (.domainVote d) := ofNone rfl
theorem prepareTimeout : Statement (.prepareTimeout) := ofNone rfl
theorem pwrAck (ack : BitVec 28) : Statement (.pwrAck ack) := ofNone rfl
theorem dozeRegate (d : BitVec 5) : Statement (.dozeRegate d) := ofNone rfl
theorem domainWake (ds : BitVec 28) : Statement (.domainWake ds) := ofNone rfl
theorem wakeTimeout (d : BitVec 5) : Statement (.wakeTimeout d) := ofNone rfl
theorem holdRelease (r : RegOp) (v : BitVec 32) : Statement (.holdRelease r v) := ofSome rfl
theorem holdSet (r : RegOp) (v : BitVec 32) : Statement (.holdSet r v) := ofSome rfl
theorem ageingReading (m : Margins) : Statement (.ageingReading m) := ofNone rfl
theorem ageingRestep (m : Margins) : Statement (.ageingRestep m) := ofNone rfl
theorem aoclkCalibration (refCycles : BitVec 32) : Statement (.aoclkCalibration refCycles) := ofNone rfl
theorem markerSend (p : BitVec 2) : Statement (.markerSend p) := ofNone rfl
theorem marker (p : BitVec 2) (m : MarkerMsg) (received : BitVec 48) : Statement (.marker p m received) := ofNone rfl
theorem time (p : BitVec 2) (m : MarkerMsg) : Statement (.time p m) := ofNone rfl
theorem markerLossTimeout : Statement (.markerLossTimeout) := ofNone rfl
theorem holdoverExpiry : Statement (.holdoverExpiry) := ofNone rfl
theorem pllLost : Statement (.pllLost) := ofNone rfl
theorem countMismatch (good : BitVec 64) : Statement (.countMismatch good) := ofNone rfl
theorem rateCheck (ticks : BitVec 32) : Statement (.rateCheck ticks) := ofNone rfl
theorem laneLoss (x : LaneLost) : Statement (.laneLoss x) := ofNone rfl
theorem ts (l : BitVec 4) (m : TsMsg) : Statement (.ts l m) := ofNone rfl
theorem trainingAttemptEnd (l : BitVec 4) (r : Attempt) (c : LaneCodes) : Statement (.trainingAttemptEnd l r c) := ofNone rfl
theorem failedLaneRetry (l : BitVec 4) : Statement (.failedLaneRetry l) := ofNone rfl
theorem driftGuard (l : BitVec 4) (c : LaneCodes) : Statement (.driftGuard l c) := ofNone rfl
theorem alignPeriod (p : BitVec 2) : Statement (.alignPeriod p) := ofNone rfl
theorem align (p : BitVec 2) (mask : BitVec 4) (b : AlignBlk) : Statement (.align p mask b) := ofNone rfl
theorem laneDown (p : BitVec 2) (k : BitVec 2) (reason : BitVec 2) (mask : BitVec 4) : Statement (.laneDown p k reason mask) := ofNone rfl
theorem downAck (p : BitVec 2) (mask : BitVec 4) : Statement (.downAck p mask) := ofNone rfl
theorem laneDownRepeat (p : BitVec 2) : Statement (.laneDownRepeat p) := ofNone rfl
theorem downAckTimeout (p : BitVec 2) : Statement (.downAckTimeout p) := ofNone rfl
theorem up (p : BitVec 2) (k : BitVec 2) : Statement (.up p k) := ofNone rfl
theorem electricalIdleEntry (p : BitVec 2) : Statement (.electricalIdleEntry p) := ofNone rfl
theorem eios (p : BitVec 2) : Statement (.eios p) := ofNone rfl
theorem electricalIdleExit (p : BitVec 2) : Statement (.electricalIdleExit p) := ofNone rfl
theorem squelchBurst (p : BitVec 2) : Statement (.squelchBurst p) := ofNone rfl
theorem idleExitTimeout (p : BitVec 2) : Statement (.idleExitTimeout p) := ofNone rfl
theorem apply (r : RegOp) : Statement (.apply r) := ofSome rfl
theorem retrain (r : RegOp) : Statement (.retrain r) := ofSome rfl
theorem injOne (r : RegOp) : Statement (.injOne r) := ofSome rfl
theorem prbsPeriodicInject (l : BitVec 4) : Statement (.prbsPeriodicInject l) := ofNone rfl
theorem prbsStatusRead (r : RegOp) : Statement (.prbsStatusRead r) := ofSome rfl
theorem event (h : RxHdr) (stamp : BitVec 64) (gsrc : BitVec 24) (kind : BitVec 8) (proxy : BitVec 14) : Statement (.event h stamp gsrc kind proxy) := ofNone rfl
theorem proxyOpen (h : RxHdr) (gsrc : BitVec 24) (entry : BitVec 64) (stamp : BitVec 32) (flags : BitVec 8) : Statement (.proxyOpen h gsrc entry stamp flags) := ofNone rfl
theorem proxyCfg (h : RxHdr) (gsrc : BitVec 24) (entry : BitVec 64) (proxy : BitVec 14) : Statement (.proxyCfg h gsrc entry proxy) := ofNone rfl
theorem proxyClose (h : RxHdr) (gsrc : BitVec 24) (proxy : BitVec 14) : Statement (.proxyClose h gsrc proxy) := ofNone rfl
theorem proxyCloseDiscard (h : RxHdr) (gsrc : BitVec 24) (proxy : BitVec 14) : Statement (.proxyCloseDiscard h gsrc proxy) := ofNone rfl
theorem proxyHandoff (h : RxHdr) (gsrc : BitVec 24) (entry : BitVec 64) (stamp : BitVec 32) (flags : BitVec 8) : Statement (.proxyHandoff h gsrc entry stamp flags) := ofNone rfl
theorem handoffSelectTimeout (proxy : BitVec 14) : Statement (.handoffSelectTimeout proxy) := ofNone rfl
theorem opened (h : RxHdr) (gsrc : BitVec 24) (proxy : BitVec 14) : Statement (.opened h gsrc proxy) := ofNone rfl
theorem refused (h : RxHdr) (gsrc : BitVec 24) (cause : BitVec 8) (proxy : BitVec 14) : Statement (.refused h gsrc cause proxy) := ofNone rfl
theorem returned (h : RxHdr) (gsrc : BitVec 24) (proxy : BitVec 14) (stamp : BitVec 32) (flags : BitVec 8) : Statement (.returned h gsrc proxy stamp flags) := ofNone rfl
theorem handback (h : RxHdr) (gsrc : BitVec 24) (proxy : BitVec 14) (stamp : BitVec 32) (flags : BitVec 8) : Statement (.handback h gsrc proxy stamp flags) := ofNone rfl
theorem summarySend : Statement (.summarySend) := ofNone rfl
theorem summary (p : BitVec 2) (org : BitVec 3) (entries : List (BitVec 20)) : Statement (.summary p org entries) := ofNone rfl
theorem alarm (p : BitVec 2) (stamp : BitVec 64) (org : BitVec 3) (line : BitVec 5) (token : BitVec 96) : Statement (.alarm p stamp org line token) := ofNone rfl
theorem quarantineAlarmRepeat (p : BitVec 2) : Statement (.quarantineAlarmRepeat p) := ofNone rfl
theorem topoDiscover (p : BitVec 2) (m : TopoMsg) : Statement (.topoDiscover p m) := ofNone rfl
theorem topoReport (org : BitVec 3) (serial : BitVec 96) (pairings : BitVec 32) (aligned : Bool) : Statement (.topoReport org serial pairings aligned) := ofNone rfl
theorem topoReady (p : BitVec 2) (m : TopoMsg) : Statement (.topoReady p m) := ofNone rfl
theorem heartbeatSend : Statement (.heartbeatSend) := ofNone rfl
theorem topoHeartbeat (p : BitVec 2) (m : TopoMsg) : Statement (.topoHeartbeat p m) := ofNone rfl
theorem headwaterTakeover : Statement (.headwaterTakeover) := ofNone rfl
theorem topoMap (p : BitVec 2) (m : TopoMsg) : Statement (.topoMap p m) := ofNone rfl
theorem topoExclude (m : TopoMsg) : Statement (.topoExclude m) := ofNone rfl
theorem topoQuarantine (p : BitVec 2) : Statement (.topoQuarantine p) := ofNone rfl
theorem batchClose (p : BitVec 2) : Statement (.batchClose p) := ofNone rfl
theorem batchTag (p : BitVec 2) (frames : List RxFrame) (mac : BitVec 96) (first : BitVec 12) (count : BitVec 8) : Statement (.batchTag p frames mac first count) := ofNone rfl
theorem ack (org : BitVec 3) (e2eAck : BitVec 16) : Statement (.ack org e2eAck) := ofNone rfl
theorem replayTimeout (p : BitVec 2) : Statement (.replayTimeout p) := ofNone rfl
theorem hello (p : BitVec 2) (m : HelloMsg) : Statement (.hello p m) := ofNone rfl
theorem cert (p : BitVec 2) (m : CertMsg) : Statement (.cert p m) := ofNone rfl
theorem keyx (p : BitVec 2) (m : KeyxMsg) : Statement (.keyx p m) := ofNone rfl
theorem confirm (p : BitVec 2) (ok : Bool) : Statement (.confirm p ok) := ofNone rfl
theorem portRetry (p : BitVec 2) : Statement (.portRetry p) := ofNone rfl
theorem one (r : RegOp) : Statement (.one r) := ofSome rfl
theorem registerRead (q : RawReq) : Statement (.registerRead q) := ofNone rfl
theorem alwaysOnReset : Statement (.alwaysOnReset) := ofNone rfl
theorem blockLock (b : LaneBlocks) : Statement (.blockLock b) := ofNone rfl
theorem prbsSync (b : LaneBits) : Statement (.prbsSync b) := ofNone rfl
theorem prbsSyncLoss (b : LaneBits) : Statement (.prbsSyncLoss b) := ofNone rfl
theorem pllRelock : Statement (.pllRelock) := ofNone rfl
theorem testLogicReset : Statement (.testLogicReset) := ofNone rfl

end Sys2Proof.Laws.PageBound
end

