-- ==== Sys2Proof/Laws/Release.lean ====
section
/-!
SUPPORT. What waits for a domain or a window entry is tried again in one place; with nothing waiting it changes nothing.
The register port, with every domain on, runs an access at once.
-/

namespace Sys2Proof.Machine

theorem State.drainReg_of_empty (s : State) (k : Nat) (h : s.reg.waiting = []) : s.drainReg k = s := by
  cases k with
  | zero => rfl
  | succ k => simp [State.drainReg, h]

theorem State.drainAll_of_empty (s : State) (h : s.reg.waiting = []) : s.drainAll = s := s.drainReg_of_empty _ h

theorem State.takeDb_of_empty (s : State) (h : s.cfl.dbWait = []) : s.takeDb = s := by
  simp only [State.takeDb, h, List.foldl_nil, State.onCfl]
  rw [← h]

theorem State.pumpDb_of_empty (s : State) (h : s.cfl.dbWait = []) : s.pumpDb = s := by
  simp only [State.pumpDb, h, List.length_nil, State.pumpRounds, State.takeDb_of_empty s h, ite_self]

theorem State.pumpLinks_of_none (s : State) (h : ∀ p ∈ s.cas.e2e, p.2.held = []) : s.pumpLinks = s := by
  simp only [State.pumpLinks, State.unlessFatal]
  split
  · rfl
  · have fold : ∀ l : SMap E2e, (∀ p ∈ l, p.2.held = []) →
        l.foldl (fun t p => if p.2.held.isEmpty then t else t.drainE2e p.1 65) s = s := by
      intro l
      induction l with
      | nil => exact fun _ => rfl
      | cons p l ih =>
        intro hl
        rw [List.foldl_cons, hl p (by simp)]
        exact ih fun q hq => hl q (by simp [hq])
    exact fold s.cas.e2e h

/-- A key of a sparse array whose entries all satisfy a test reads the default or a value that satisfies it. -/
theorem SMap.get_of_all {α : Type} (d : α) (m : SMap α) (i : Nat) (P : α → Prop) (hd : P d) (h : ∀ p ∈ m, P p.2) :
    P (SMap.get d m i) := by
  induction m with
  | nil => exact hd
  | cons p m ih =>
    obtain ⟨j, w⟩ := p
    by_cases hj : i = j
    · subst hj
      simpa [SMap.get] using h _ (List.mem_cons_self ..)
    · simp only [SMap.get, hj, if_false]
      exact ih fun q hq => h q (List.mem_cons_of_mem _ hq)

theorem State.drainUps_of_empty (s : State) (h : ∀ p ∈ s.ports, p.2.upq = []) : s.drainUps = s := by
  have one : ∀ n, s.drainUp n = s := fun n => by
    have : (s.port n).upq = [] := SMap.get_of_all ({} : Port) s.ports n (fun x => x.upq = []) rfl h
    simp [State.drainUp, this]
  have fold : ∀ l : List Nat, l.foldl (fun t n => t.drainUp n) s = s := by
    intro l
    induction l with
    | nil => rfl
    | cons n l ih => rw [List.foldl_cons, one n, ih]
  exact fold _

/-- With nothing waiting, nothing goes on (R130, R142, R228, R386). -/
theorem State.goesOn_of_nothing (s : State) (hr : s.reg.waiting = []) (hd : s.cfl.dbWait = [])
    (hk : s.keys.waiting = []) (ho : s.keys.offered = []) (he : ∀ p ∈ s.cas.e2e, p.2.held = [])
    (hu : ∀ p ∈ s.ports, p.2.upq = []) (hl : s.pwr.latched = []) : s.releaseLatched.release.keyPumpAll = s := by
  have hlat : s.releaseLatched = s := by simp [State.releaseLatched, hl]
  have hrel : s.release = s := by
    simp only [State.release, State.drainAll_of_empty s hr, State.pumpDb_of_empty s hd, State.pumpLinks_of_none s he,
      State.drainUps_of_empty s hu]
  rw [hlat, hrel, State.keyPumpAll, hk, ho]
  rfl

/-- Nothing waits, so nothing is released. -/
theorem State.released_of_nothing (s : State) (h : Safety.nothingWaits s = true) : s.released = s := by
  simp only [Safety.nothingWaits, Bool.and_eq_true, List.isEmpty_iff, List.all_eq_true] at h
  obtain ⟨⟨⟨⟨⟨⟨hr, hd⟩, hk⟩, ho⟩, he⟩, hu⟩, hl⟩ := h
  rw [State.released, State.keyEvent,
    State.goesOn_of_nothing (s.onKeys fun k => { k with resps := [] }) hr hd hk ho he hu hl]
  rfl

/-- With no error standing, an update of a source is its row, a reserved STATE repaired first (R145, R163). -/
theorem State.onSource_of_nil (s : State) (n : Nat) (f : State → State) (h : s.upsets = []) :
    s.onSource n f = f (if s.fatal.inSeq then s else s.fixReserved n) := by
  simp only [State.onSource]
  split
  · simp_all
  · simp_all [State.usingWords_of_nil]

/-- The block in service: READY, no fatal sequence, every domain on. -/
theorem Safety.inService_iff (s : State) : Safety.inService s = true ↔
    s.boot.mode = .ready ∧ s.fatal.inSeq = false ∧ s.pwr.dom = [] ∧ s.pwr.phase = 0 := by
  simp [Safety.inService, Safety.allOn, and_assoc]

/-- An access that finds the port free is run at once (R19). -/
theorem State.access_of_free (s : State) (a : Acc) (h : Safety.portFree s = true) : s.access a = s.runAcc { a with at_ := s.now } := by
  simp only [Safety.portFree, Bool.and_eq_true, List.isEmpty_iff] at h
  obtain ⟨⟨hc, hw⟩, hi⟩ := h
  obtain ⟨-, -, hd, hp⟩ := (Safety.inService_iff s).1 hi
  simp [State.access, hc, hw, State.touch_of_on s _ hd hp, State.allAvail_of_on s _ hd hp]

/-- Events are served in READY outside a fatal sequence (R65). -/
theorem State.serving_of_inService (s : State) (h : Safety.inService s = true) : s.serving = true := by
  obtain ⟨hm, hf, -, -⟩ := (Safety.inService_iff s).1 h
  simp [State.serving, hm, hf]

/-- A frame on a port that is UP is heard. -/
theorem State.frameOn_of_up (s : State) (p : Nat) (f : State → State) (hf : s.fatal.inSeq = false)
    (hu : (s.lport p).state = .up) : s.frameOn p f = f s := by simp [State.frameOn, hf, hu]

/-- A frame on a port that is not UP is not heard. -/
theorem State.frameOn_of_not_up (s : State) (p : Nat) (f : State → State) (hf : s.fatal.inSeq = false)
    (hu : (s.lport p).state ≠ .up) : s.frameOn p f = s := by simp [State.frameOn, hf, hu]

/-- After a FATAL reaction a frame is discarded and counted in LATE (R437). -/
theorem State.frameOn_of_fatal (s : State) (p : Nat) (f : State → State) (hf : s.fatal.inSeq = true) :
    s.frameOn p f = s.late := by simp [State.frameOn, hf]

/-- A block that is not starting has no port to settle (R63). -/
theorem State.portSettled_of_ready (s before : State) (p : Nat) (h : s.boot.mode ≠ .starting) :
    s.portSettled before p = s := by
  simp [State.portSettled, State.portExit, State.linksSettled, State.checkOver, State.atCheck, h]

end Sys2Proof.Machine
end

