-- ==== Sys2Proof/Machine/Boundary.lean ====
section
/-!
DEFINITION. The boundary as the state drives it: ready and valid signals, and the crossing FIFOs with their depths
(R12 to R15, R23, R25, R30, R35, R48, R52, R53, R57, R58).
-/

namespace Sys2Proof.Machine

/-- The crossings of R57 with a FIFO. -/
inductive Crossing where
  | register
  | doorbell
  | doorbellResp
  | delivery
  | wired
  | lane
  | key
  | stamping
  deriving DecidableEq, Repr

/-- Depth of a crossing (R57); of a lane port in words. -/
def Crossing.depth : Crossing → Nat
  | .register => 16
  | .doorbell => 32
  | .doorbellResp => 32
  | .delivery => 8
  | .wired => 64
  | .lane => 32
  | .key => 16
  | .stamping => 4

/-- REG_AREADY: a request can be accepted (R15). -/
def State.regReady (s : State) : Bool := s.boot.crst && s.reg.waiting.length < Crossing.register.depth

/-- DBn_AREADY: for the write that waits on the request channel, or for any while none waits and the window has room
(R23, R25, R58, R130). A block that does not serve answers every access with FAULT (R67). -/
def State.doorbellReady (s : State) (n : Nat) : Bool :=
  s.boot.crst &&
    (!s.serving || s.boot.mode != .ready ||
      (s.avail dCFL &&
        match s.cfl.dbWait.find? fun w => !w.transferred && w.req.port.toNat == n with
        | some w => s.dbReady w
        | none => s.outstanding (BitVec.ofNat 2 n) < Crossing.doorbell.depth && !s.winFull))

/-- The messages of a delivery port that are in its FIFO; the others wait in the Bolril (R57, R58). -/
def State.downFifo (s : State) (n : Nat) : List DMsg := (s.port n).down.take Crossing.delivery.depth

/-- DLVn_D_VALID with the message it offers (R30, R35). -/
def State.downValid (s : State) (n : Nat) : Option DMsg := if (s.port n).inReset then none else (s.downFifo n).head?

/-- KEY_READY: the vault is formed and the FIFO has room for a beat (R48, R57, R58). -/
def State.keyReady (s : State) : Bool :=
  s.keys.formed && s.keys.offered.isEmpty && s.keyBeats < Crossing.key.depth

/-- TDO: high impedance but in Shift-DR and Shift-IR, where the bit that is shifted out stands on it (R52). -/
def Tap.tdo (t : Tap) (out : Bool) : Option Bool := if t.ctl = .shiftDr || t.ctl = .shiftIr then some out else none

/-- A transmit lane is in electrical idle: its port sends nothing (R53, R312); the lane of a test drives its pad, but in
HALTED and the fatal sequence (R64, R402). -/
def State.laneIdle (s : State) (l : Nat) : Bool :=
  match (s.lane l).state with
  | .disabled => true
  | .test => s.boot.mode = .halted || s.fatal.inSeq
  | _ => (s.lport (lanePort l)).lanes.idleTx

/-- SAF_FATAL and the error rails (R46). -/
def State.safetyPins (s : State) : Bool × Rails := (s.saf.fatalOut, s.saf.rails)

end Sys2Proof.Machine
end

