-- ==== Sys2Proof/Tests/Slice0.lean ====
section
/-!
SUPPORT. Tests: ill-formed terms that each check of WellFormed refuses, a witness for every statement (a state and
operands that meet the hypotheses of each of its clauses), and small results taken from the rules named in each
comment.
-/

namespace Sys2Proof.Tests

open Sys2Proof Sys2Proof.Machine Sys2Proof.Safety

/-! ### Helpers -/

/-- The next state of an outcome. -/
def got (o : Host.Outcome State Fault Refusal) : State :=
  match o with
  | .next t => t
  | _ => State.reset

/-- A secure access through the global window. -/
def sec : RegOp := { world := true, pid := 0, tag := 7, page := none }

/-- A normal access through the global window. -/
def nor : RegOp := { world := false, pid := 5, tag := 7, page := none }

/-- A slice record: number, normal or secure world, default shares. -/
def slRec (i : Nat) (w : Bool) : BitVec 256 := BitVec.ofNat 256 (i + b2n w * 2 ^ 24 + 16 * 2 ^ 32 + 8 * 2 ^ 48 + 16 * 2 ^ 64)

/-- A small structure: slices 0 and 1 of the normal world, unit 0 for slice 1, context 0 for slice 0, context 2 for
slice 1, line 16 in use, PTMO 10 and nominal ceilings. -/
def body : ImageBody :=
  { ImageBody.empty with
    boot := BitVec.ofNat 512 (10 * 2 ^ 16 + (0x14 + 0x24 * 2 ^ 8 + 0x34 * 2 ^ 16 + 0x46 * 2 ^ 24) * 2 ^ 64)
    pools := [BitVec.ofNat 64 (1 + 2 ^ 24)]
    slices := [slRec 0 false, slRec 1 false]
    contexts := [1, 0, 3]
    wired := [1]
    profiles := [0xFF]
    reactions := [0x0101] }

/-- A key slot that an identity or a verification key fills. -/
def rootSlot : Slot := { present := true, parent := 31, klen := 6 }

/-- READY with every domain on: slices 0 and 1 ACTIVE, ports out of reset. -/
def rdy : State :=
  { State.reset with
    boot := { mode := .ready, step := 14, crst := true, aoUp := true, poweredOn := false }
    straps := { lcs := 1, roots := [1, 2, 3, 4], vkeys := [true, true, true, true] }
    img := { active := body }
    ctxs := [(0, { inUse := true }), (2, { inUse := true, slice := 1 })]
    slcs := [(0, { state := .active, live := { aweight := 16, quota := 8, dweight := 16 } }),
             (1, { state := .active, info := { extUnits := 1 }, live := { aweight := 16, quota := 8, dweight := 16 } })]
    ports := [(0, { uReady := true })]
    tb := { running := true, count := 5000000 }
    lev := { Lev.reset with lvls := [(0, { code := 0x14, ceil := 0x14 }), (1, { code := 0x24, ceil := 0x26 }),
                                     (2, { code := 0x34, ceil := 0x36 }), (3, { code := 0x46, ceil := 0x48 })] }
    keys := { formed := true, slots := [(0, rootSlot), (2, rootSlot), (5, rootSlot)] } }

/-- The fatal sequence after class 0x12. -/
def fatal : State := { rdy with fatal := { inSeq := true, cls := 0x12 } }

/-- A HALTED block. -/
def halted : State := { rdy with boot := { rdy.boot with mode := .halted } }

/-! ### Well-formed commands: each check refuses a term -/

theorem wf_page_low : (Instr.srcFire { sec with page := some 0 }).wf = false := by decide
theorem wf_page_high : (Instr.srcFire { sec with page := some 3841 }).wf = false := by decide
theorem wf_page_ok : (Instr.srcFire { sec with page := some 3840 }).wf = true := by decide
theorem wf_line_gap : (Instr.wiredCapture 15 true).wf = false := by decide
theorem wf_line_self : (Instr.wiredCapture 1000 true).wf = false := by decide
theorem wf_wake_line : (Instr.dormantWakeLatch (.wired 14 true) true).wf = false := by decide
theorem wf_domain : (Instr.domainVote 28).wf = false := by decide
theorem wf_doze_domain : (Instr.dozeRegate 28).wf = false := by decide
theorem wf_wake_domain : (Instr.wakeTimeout 31).wf = false := by decide
theorem wf_bank : (Instr.scrubStep ⟨[(34, .clean)], true⟩ ⟨[], true⟩).wf = false := by decide
theorem wf_test_bank : (Instr.warmResetRelease ⟨[], [40], true, true, true⟩).wf = false := by decide
theorem wf_counter : (Instr.cntRd (.context 0 3)).wf = false := by decide
theorem wf_load_beats : (Instr.load ⟨1, 6⟩ []).wf = false := by decide
theorem wf_invalidate_beats : (Instr.invalidateSlot 6 0).wf = false := by decide
theorem wf_invalidate_root_beats : (Instr.invalidateRoot 0).wf = false := by decide
theorem wf_summary_length : (Instr.summary 0 1 (List.replicate 9 0)).wf = false := by decide
theorem wf_load_ok : (Instr.load ⟨1, 6⟩ [0]).wf = true := by decide

/-! ### Witnesses: the step, reset and whole-machine rules -/

theorem witness_StepRunsFront :
    { rdy with pending := [.admissionCycle, .pllLost] }.pending = .admissionCycle :: [.pllLost] := rfl

theorem witness_StepIdles :
    let slew (x : Int) : State := { rdy with tb := { rdy.tb with slew := x } }
    rdy.pending = [] ∧ rdy.tb.running = true ∧ State.reset.tb.running = false ∧ rdy.tb.onAoclk = false ∧
    ({ rdy.tb with onAoclk := true }).onAoclk = true ∧ rdy.tb.aoFrac + rdy.tb.aoRatio < 1024 * 2 ^ 64 ∧
    rdy.tb.phase < 64 ∧ rdy.tb.slew = 0 ∧ 64 ≤ (slew 64).tb.slew ∧ (slew (-64)).tb.slew ≤ -64 ∧
    rdy.tb.blkPhase + 16 < 325 := by decide

theorem witness_QueueAndDeniedKept :
    exec .stwHalt { rdy with tap := { denied := true } } = .next (deniedTap rdy .stwHalt) ∧
    ({ rdy with tap := { denied := true } } : State).tap.denied = true := ⟨rfl, rfl⟩

theorem witness_RingsKept :
    ringsOk rdy = true ∧ rdy.pending.head?.any undefinedPulse = false ∧ step rdy = .next (idleTick rdy) :=
  ⟨by decide, rfl, rfl⟩

theorem witness_HaltedStays :
    halted.boot.mode = .halted ∧ halted.boot.crst = true ∧ undefinedPulse .testLogicReset = false ∧
    exec .testLogicReset halted = .next halted := ⟨rfl, rfl, rfl, rfl⟩

theorem witness_FatalFreezes :
    fatal.fatal.inSeq = true ∧ fatal.boot.crst = true ∧ undefinedPulse .testLogicReset = false ∧
    exec .testLogicReset fatal = .next fatal := ⟨rfl, rfl, rfl, rfl⟩

/-! ### Witnesses: start-up and resets -/

theorem witness_ResetPulsesAndPower :
    (7 : Nat) < 8 ∧ State.reset.boot.crst = false ∧ rdy.boot.crst = true ∧ rdy.keys.commit = none ∧
    undefinedPulse (.coldReset 8) = true ∧ undefinedPulse (.warmReset 31) = true ∧ undefinedPulse (.coldReset 7) = false ∧
    undefinedPulse (.warmReset 32) = false ∧
    State.reset.boot.aoUp = false ∧ State.reset.boot.held = none := by decide

/-- Descriptors of sections `(type, count, record size)` laid out from an offset, and the end. -/
def descs : Nat → List (Nat × Nat × Nat) → List SecDesc × Nat
  | off, [] => ([], off)
  | off, (ty, n, size) :: l =>
    let r := descs (off + (n * size + 7) / 8 * 8) l
    ({ type := BitVec.ofNat 8 ty, sver := 1, count := BitVec.ofNat 16 n, offset := BitVec.ofNat 32 off,
       slen := BitVec.ofNat 32 (n * size), crc := 0 } :: r.1, r.2)

/-- An image whose descriptors carry the CRC of their sections (R82). -/
def sealCrc (m : Image) : Image := { m with descs := m.descs.map fun d => { d with crc := crc32 (secBytes m d) } }

/-- An image of a kind with its sections and compatibility records (R80, R82, R99). -/
def image (kind : Nat) (l : List (Nat × Nat × Nat)) (b : ImageBody) (partners : List (BitVec 64)) : Image :=
  let d := descs (0x80 + 16 * l.length) l
  { hdr := { magic := 0x4D495342, format := 2, kind := BitVec.ofNat 8 kind, length := BitVec.ofNat 32 (d.2 + 96),
             nsect := BitVec.ofNat 16 l.length, version := 0x00010000, gen := 0, keyslot := 2,
             buildId := 0 }
    descs := d.1
    compat := (0x0200 : BitVec 64) :: partners
    body := b
    code := []
    data := []
    annex := []
    sigR := 0
    sigS := 0
    sigOk := true }

/-- A compatibility record of a partner kind at version 1.0. -/
def partner (k : Nat) : BitVec 64 := BitVec.ofNat 64 (k + 0x00010000 * 2 ^ 32)

/-- A structure image of `body`. -/
def strImage : Image := sealCrc <|
  image 1 [(1, 1, 64), (2, 1, 8), (3, 0, 16), (4, 984, 4), (5, 40, 8), (6, 1024, 4), (7, 2, 32), (8, 4096, 8), (9, 0, 136),
           (10, 1, 96), (12, 1, 8), (13, 1, 2), (14, 28, 4), (15, 1000, 8), (16, 3, 8)] body [partner 2, partner 3]

/-- A firmware image of a kind. -/
def firmware (k : Nat) : Image := sealCrc <|
  image k [(0x10, 3, 8), (0x20, 1, 8), (0x21, 1, 8)] ImageBody.empty [partner 1, partner (5 - k)]

def fuses : Fuses :=
  { words := [], crcOk := true, lcs := 1, ptrA := 0x1000, ptrB := 0, genStr := 0, genStw := 0, genLane := 0, rootMfg := 1,
    rootProd := 2, rootRet := 3, rootTest := 4, vkey1 := true, vkey2 := true, vkey3 := true, vkey4 := true }

/-- A self-test that finds nothing. -/
def clean : SelfTest := { ssaBad := [], plaBad := [], weirA := true, weirB := true, clockOk := true }

/-- The section checks without the CRC. -/
def sectionsForm (m : Image) (kind : Nat) : Bool :=
  m.descs.length == m.hdr.nsect.toNat &&
  m.descs.all (fun d =>
    d.sver == 1 && d.offset.toNat % 8 == 0 && 0x80 + 16 * m.hdr.nsect.toNat ≤ d.offset.toNat &&
    d.offset.toNat + d.slen.toNat + 96 ≤ m.hdr.length.toNat && secTypeOk kind d) &&
  allPairs secApart m.descs && allPairs (fun a b => a.type != b.type) m.descs &&
  (requiredTypes m kind).all fun ty => m.descs.any fun d => d.type.toNat == ty

theorem secBytes_seal (m : Image) (d : SecDesc) (x : BitVec 32) :
    secBytes (sealCrc m) { d with crc := x } = secBytes m d := rfl

/-- A sealed image passes the section checks if its form does. -/
theorem sectionsOk_seal (m : Image) (kind : Nat) (h : sectionsForm (sealCrc m) kind = true) :
    sectionsOk (sealCrc m) kind = true := by
  have hc : ∀ d ∈ (sealCrc m).descs, d.crc = crc32 (secBytes (sealCrc m) d) := by
    intro d hd
    obtain ⟨e, _, rfl⟩ := List.mem_map.1 hd
    rw [secBytes_seal]
  simp only [sectionsForm, Bool.and_eq_true, List.all_eq_true] at h
  simp only [sectionsOk, Bool.and_eq_true, List.all_eq_true]
  refine ⟨⟨⟨⟨h.1.1.1.1, fun d hd => ⟨h.1.1.1.2 d hd, ?_⟩⟩, h.1.1.2⟩, h.1.2⟩, h.2⟩
  exact beq_iff_eq.2 (hc d hd)

theorem sections_strImage : sectionsOk strImage 1 = true := sectionsOk_seal _ _ (by decide +kernel)

theorem sections_firmware : sectionsOk (firmware 2) 2 = true ∧ sectionsOk (firmware 3) 3 = true :=
  ⟨sectionsOk_seal _ _ (by decide +kernel), sectionsOk_seal _ _ (by decide +kernel)⟩

/-- The three images of a pointer. -/
def images : ImageSet := ⟨strImage, firmware 2, firmware 3⟩

/-- The world's answers to a cold start that succeeds. -/
def env : StartEnv :=
  { devid := 0, hwRole := 0, imgSel := false, dbg := 0, rstWdt := false, fuses := fuses, pllOk := true, romOk := true,
    respA := .done, respB := .fault, fetchA := images, fetchB := images, vgoodOk := true, margins := [], test := clean,
    ts := [], trained := 0, skews := [], codes := [] }

/-- The always-on domain is up, CRST_N low. -/
def cold : State := { State.reset with boot := { aoUp := true } }

theorem witness_ColdStarts_halts :
    State.reset.boot.crst = false ∧ State.reset.boot.aoUp = false ∧ cold.boot.crst = false ∧ cold.boot.aoUp = true ∧
    cold.fatal.inSeq = false ∧ ({ fuses with crcOk := false }).crcOk = false ∧
    3 < ({ fuses with lcs := 4 }).lcs.toNat ∧ ({ fuses with lcs := 3 }).lcs = 3 ∧ bit env.dbg 3 = false ∧
    bit env.dbg 1 = false ∧ fuses.lcs.toNat < 3 ∧ ({ env with pllOk := false }).pllOk = false ∧
    ({ env with romOk := false }).romOk = false ∧ ({ fuses with ptrA := 0 }).ptrA = 0 ∧ fuses.ptrB = 0 := by decide

theorem witness_ColdStarts_serves :
    cold.saf.react = [] ∧ cold.cas.role = 0 ∧ chosenSet env = some images ∧
    casRole (normBody strImage) = 0 ∧ cleanTest env.test = true :=
  ⟨rfl, rfl, rfl, by decide +kernel, rfl⟩

/-- An image verifies when each step of R101 passes. -/
theorem verify_of (s : State) (kind : Nat) (m : Image) (floor : Nat) (h1 : hdrOk m.hdr kind = true)
    (h2 : ¬ m.hdr.gen.toNat < max (s.straps.genMin kind) floor)
    (h3 : (m.hdr.keyslot.toNat ≠ s.verifySlot || !s.usable s.verifySlot) = false) (h4 : m.sigOk = true)
    (h5 : sectionsOk m kind = true) (h6 : (kind = 1 && !totalOk m) = false)
    (h7 : (kind = 1 && !deviceChecks (normBody m) s.dev) = false) : s.verify kind m floor = 0 := by
  unfold State.verify
  rw [if_neg (by rw [h1]; decide), if_neg h2, if_neg (by rw [h3]; decide), if_neg (by rw [h4]; decide),
    if_neg (by rw [h5]; decide), if_neg (by rw [h6]; decide), if_neg (by rw [h7]; decide)]

/-- Three images that verify leave no exit. -/
theorem setCode_of (s : State) (x : ImageSet) (h1 : s.verify 1 x.structureImg 0 = 0) (h2 : s.verify 2 x.steward 0 = 0)
    (h3 : s.verify 3 x.lane 0 = 0) : (s.setCode (some x)).1 = 0 := by
  simp [State.setCode, h1, h2, h3]

theorem witness_ColdStarts_verified : ((beforeFetch cold env).setCode (some images)).1 = 0 :=
  setCode_of _ images
    (verify_of _ 1 strImage 0 (by decide +kernel) (by decide +kernel) (by decide +kernel) rfl sections_strImage
      (by decide +kernel) (by decide +kernel))
    (verify_of _ 2 (firmware 2) 0 (by decide +kernel) (by decide +kernel) (by decide +kernel) rfl sections_firmware.1
      (by decide +kernel) (by decide +kernel))
    (verify_of _ 3 (firmware 3) 0 (by decide +kernel) (by decide +kernel) (by decide +kernel) rfl sections_firmware.2
      (by decide +kernel) (by decide +kernel))

theorem witness_WarmResets :
    rdy.fatal.inSeq = false ∧ rdy.boot.mode = .ready ∧ fatal.fatal.inSeq = true ∧ State.reset.boot.mode = .starting ∧
    halted.boot.mode = .halted ∧ rdy.boot.wrstLow = false ∧
    rdy.boot.crst = true ∧ rdy.boot.aoUp = true ∧ rdy.reg.waiting = [] ∧
    ({ rdy with boot := { rdy.boot with mode := .starting, wrstLow := true, warm := true } }).boot.wrstLow = true ∧
    ({ fatal with boot := { fatal.boot with wrstLow := true } }).boot.wrstLow = true ∧
    2 ≤ ({ rdy with pwr := { dom := [(1, 2)] } } : State).domSt 1 ∧
    rdy.cas.role = 0 ∧ cleanTest clean = true ∧ allOn rdy = true := by decide

/-- Twenty milliseconds after CRST_N without a path to a headwater. -/
def joining : State :=
  { rdy with
    boot := { rdy.boot with mode := .starting, step := 12 }
    cas := { role := 1 } }

theorem witness_JoinTimeoutAndDebug :
    joining.boot.mode = .starting ∧ joining.boot.warm = false ∧ joining.hasPath = false ∧ joining.boot.wrstLow = false ∧
    11 ≤ joining.boot.step ∧ joining.fatal.inSeq = false ∧ State.reset.boot.crst = false ∧
    ((8 : BitVec 4) &&& ~~~ rdy.straps.dbgNow) &&& 10 ≠ 0 ∧ bit (rdy.straps.dbgLive &&& 0) 3 = false := by decide

/-- A device in a step of its start whose ports 0 and 1 are UP; headwater 1 sends the cascade-ready notice. -/
theorem witness_JoinTimeoutAndDebug_notice :
    let s (n : Nat) (w : Bool) : State := { joining with
      boot := { joining.boot with step := n, warmSafe := w }
      lports := [(0, { state := .up, lanes := { idleTx := false } }), (1, { state := .up, lanes := { idleTx := false } })] }
    (s 13 false).fatal.inSeq = false ∧ ((s 13 false).lport (0 : BitVec 2).toNat).state = .up ∧
    (s 13 false).boot.mode = .starting ∧ (s 13 false).boot.warm = false ∧ (s 13 false).boot.step = 13 ∧
    (s 13 false).boot.warmSafe = false ∧ (s 13 true).boot.warmSafe = true ∧ (s 12 false).boot.step ≠ 13 ∧
    (1 : BitVec 3).toNat ≠ (s 12 false).dev ∧ 1 < 4 ∧ 1 ≠ (0 : BitVec 2).toNat ∧ canSend (s 12 false) 1 = true := by decide

/-! ### Witnesses: the test access port, keys, steward and integrity -/

/-- The same with every debug enable. -/
def dbgOn : State := { rdy with straps := { rdy.straps with dbgLive := 15, dbgNow := 15 }, trace := [(1, 0)] }

theorem witness_TapDenials :
    invasiveOk rdy true = false ∧ invasiveOk rdy (rdy.entry 1024).world = false ∧ nonInvasiveOk rdy true = false ∧
    nonInvasiveOk rdy false = false ∧ nonInvasiveOk rdy (rdy.cntWorld (.source 16)) = false ∧
    ({ rdy with tap := { denied := true } } : State).tap.denied = true := by decide

theorem witness_TapInstructions :
    invasiveOk dbgOn true = true ∧ invasiveOk dbgOn (dbgOn.entry 1024).world = true ∧ dbgOn.fatal.inSeq = false ∧
    nonInvasiveOk dbgOn true = true ∧ dbgOn.trace[0]? = some (1, 0) ∧ dbgOn.trace[4095]? = none ∧
    nonInvasiveOk dbgOn (dbgOn.cntWorld (.slice 1 .completions)) = true ∧ unspoiled dbgOn = true ∧
    (dbgOn.entry 1024).state ≠ .reserved ∧ allOn dbgOn = true ∧
    ({ dbgOn with fatal := { inSeq := true } } : State).fatal.inSeq = true := by decide

/-- An entry with the reserved STATE, its world's debug enable high; its quadrant asleep. -/
theorem witness_TapInstructions_reserved :
    let s : State := { dbgOn with arr := { cells := [(1024, { state := .reserved })] } }
    let z : State := { dbgOn with pwr := { dom := [(dARR 1024, 2)] } }
    invasiveOk s (s.entry (1024 : BitVec 21).toNat).world = true ∧ (s.entry 1024).state = .reserved ∧ unspoiled s = true ∧
    s.fatal.inSeq = false ∧ 2 ≤ z.domSt (dARR 1024) ∧ z.pwr.phase = 0 := by decide

theorem witness_KeyPort :
    vaultFree rdy = true ∧ loadHeaderOk 15 0x2F88 = true ∧ loadHeaderOk 15 0 = false ∧
    [1, 2, 3].length = fld (0x2F88 : BitVec 64) 12 4 + 1 ∧ rdy.parentOk (fld (0x2F88 : BitVec 64) 7 5) = true ∧
    (commitCopy rdy 15).commits < 100000 ∧ (commitCopy rdy 16).commits < 100000 ∧ (15 : BitVec 4).toNat ≥ 6 ∧
    ({ rdy with keys := { rdy.keys with commit := some ⟨15, true, {}, none⟩ } }).keys.waiting = [] ∧
    rdy.keys.commit = none ∧ State.reset.keys.formed = false ∧ 4 ≤ (4 : BitVec 3).toNat ∧
    16 < (List.replicate 17 (0 : BitVec 64)).length ∧ [1, 2, 3].length ≤ 15 ∧ (5 : BitVec 4).toNat < 6 := by decide

theorem witness_MailboxCommandEnds :
    rdy.mbx.busy = false ∧ ({ rdy with mbx := { owned := true, busy := true, cmd := 1 } }).mbx.busy = true ∧
    rdy.saf.stwStop = false ∧ rdy.boot.mode = .ready ∧ rdy.saf.stwHalted = false ∧ rdy.usable 0 = true ∧
    ({ rdy with saf := { stwHalted := true } }).saf.stwHalted = true := by decide

theorem witness_ScrubRebuildAndCopies :
    State.reset.scrubs = false ∧ rdy.scrubs = true ∧ unspoiled rdy = true ∧
    65536 ≤ ({ rdy with stripes := { row := 65535 } }).stripes.row + 1 ∧
    ((rdy.stripe true).rebuildRuns = false) ∧
    ((({ rdy with stripes := { ssa := { mode := .rebuilding, rebuildRow := 65535 } } }).stripe false).mode =
      .rebuilding) ∧
    (rdy.stripe false).rebuildRow < 65536 ∧
    2 ≤ (([(0, .uncorrectable), (1, .uncorrectable)] : List (BitVec 6 × WordState)).filter
      fun w => w.2 == .uncorrectable).length ∧ rdy.weir.sleptAt = none ∧ rdy.weirRuns = true ∧ rdy.domSt dWEIR = 0 ∧
    rdy.fatal.inSeq = false ∧
    rdy.weir.mode ≠ .selftest ∧ ({ rdy with weir := { mode := .selftest } }).weir.mode = .selftest ∧
    ({ rdy with weir := { mode := .fencedB } }).weir.mode = .fencedB ∧ rdy.weir.mode ≠ .fencedA ∧
    rdy.weir.mode ≠ .fencedB := by decide

/-- Debug enables high, and an error that stands in the SSA word of source 1024. -/
def upset (w : WordState) : State := { dbgOn with upsets := [.word false 1024 w] }

theorem witness_ScrubRebuildAndCopies_upsets :
    let s := upset .uncorrectable
    State.reset.serving = false ∧ (∀ u ∈ s.upsets, ∀ x, u ≠ .map x) ∧ invasiveOk s (s.entry (1024 : BitVec 21).toNat).world = true ∧
    s.fatal.inSeq = false ∧ (s.entry 1024).state ≠ .reserved ∧
    (s.stripe false).gone ((s.stripe false).bankOf (rowOf 1024) (bankPos 1024)) = false ∧
    s.upsets = [.word false 1024 .uncorrectable] ∧ (s.stripe false).mode = .normal ∧ (s.stripe false).ueRows = [] ∧
    (upset (.rowLost 3)).upsets = [.word false 1024 (.rowLost 3)] := by
  refine ⟨by decide, ?_, by decide, by decide, by decide, by decide, rfl, by decide, by decide, rfl⟩
  intro u h x
  simp only [upset, List.mem_singleton] at h
  simp [h]

theorem witness_DumpEnds :
    rdy.fatal.inSeq = false ∧ fatal.fatal.inSeq = true ∧ fatal.boot.mode ≠ .halted ∧ fatal.fatal.cls ≠ 0x13 ∧
    fatal.saf.stwHalted = false ∧ fatal.saf.stwStop = false ∧ fatal.fatal.dumpLen = 0 := by decide

/-- A buffer of one byte is too small for every dump, one of 64 MiB holds every dump. -/
theorem witness_DumpEnds_sizes (s : State) : 1 < s.dumpShort ∧ s.dumpShort ≤ 67108864 ∧ s.dumpFull ≤ 67108864 := by
  have h : s.stewardLen ≤ 1048576 := Nat.le_of_lt_succ (Nat.mod_lt _ (by decide))
  refine ⟨?_, ?_, ?_⟩
  · simp only [State.dumpShort]
    omega
  · simp only [State.dumpShort]
    omega
  · simp only [State.dumpFull]
    omega

theorem witness_ClockFaultAndWatchdog_cases :
    let asleep : State := { rdy with pwr := { dom := (List.range 28).map fun d => (d, 3) } }
    let late : State := { fatal with fatal := { inSeq := true, cls := 0x12, tick := 1 } }
    asleep.blockState = 3 ∧ asleep.boot.crst = true ∧ ClockId.sclk ≠ .hclk ∧ rdy.saf.unread < 255 ∧ rdy.mailServed = true ∧
    late.fatal.inSeq = true ∧ late.fatal.tick ≠ late.now ∧ ({ rdy with saf := { stwHalted := true } } : State).saf.stwHalted = true ∧
    ({ rdy with mbx := { owned := true, busy := true } } : State).mbx.busy = true := by decide

theorem witness_ClockFaultAndWatchdog :
    State.reset.boot.crst = false ∧ rdy.boot.crst = true ∧ rdy.blockState ≠ 3 ∧ rdy.fatal.inSeq = false ∧
    rdy.reaction 0x12 = 3 ∧ rdy.saf.stwHalted = false ∧ rdy.saf.stwStop = false ∧ rdy.saf.lastWdt = none ∧
    ({ rdy with saf := { lastWdt := some 1 } }).saf.lastWdt = some 1 := by decide

/-! ### Witnesses: doorbells and the window -/

/-- A SINGLE of source 1024 by the secure manager. -/
def single : DbReq :=
  { port := 0, tag := 1, world := true, pid := 0, addr := 0, size := 2, strb := 0x0F, data := 1024, emapErr := false }

/-- A RANGE of `n` sources from 1024. -/
def range (n : Nat) : DbReq := { single with size := 3, strb := 0xFF, data := BitVec.ofNat 64 (1024 + n * 2 ^ 32) }

theorem witness_DoorbellForms :
    inService rdy = true ∧ rdy.cfl.dbWait = [] ∧ dbForm (range 1) false = true ∧ dbForm single true = true ∧
    dbForm { single with addr := 2 } false = true ∧ dbForm { range 1 with addr := 4 } true = true ∧
    dbForm single false = false ∧ dbForm (range 1) true = false := by decide

theorem witness_DoorbellsAdmitted :
    inService rdy = true ∧ rdy.cfl.dbWait = [] ∧ rdy.ordUsed < 7936 ∧ single.emapErr = false ∧
    rdy.checkDb single false = .ok ⟨1024, 1, 1⟩ ∧ rdy.checkDb (range 0) true = .ok ⟨1024, 0, 1⟩ ∧
    mapReads rdy 1024 ∧ rdy.checkDb (range 2) true = .ok ⟨1024, 2, 1⟩ ∧ rdy.spills 1 (rdy.express 1024) = false ∧
    State.reset.boot.mode ≠ .ready ∧ State.reset.fatal.inSeq = false ∧
    ({ rdy with pwr := { dom := [(1, 2)] } }).pwr.phase = 0 ∧ 2 ≤ ({ rdy with pwr := { dom := [(1, 2)] } }).domSt dCFL := by
  and_intros <;> first | rfl | decide | (intro h; exact absurd h (by decide))

/-- A doorbell write that waits for a window entry. -/
def waitingDb : State :=
  { rdy with cfl := { dbWait := [{ req := single, range := false, transferred := true, checked := true, first := 1024,
                                   count := 1, next := 0, slice := 1, stamp := 9 }] } }

/-- A firing of source 1024 in the window. -/
def ent : WinEnt :=
  { src := 1024, slice := 1, stamp := 9, express := false, expEnt := false, origin := 0, spilled := true, kind := .fire }

/-- A spilled firing in the window; slice 1 without a weight. -/
def spilled : State :=
  { rdy with
    cfl := { window := [ent] }
    slcs := [(0, { state := .active }), (1, { state := .active, info := { extUnits := 1 }, live := ⟨0, 8, 16⟩ })] }

theorem witness_WindowAdmission :
    inService waitingDb = true ∧ waitingDb.cfl.dbWait.length = 1 ∧ single.emapErr = false ∧ waitingDb.ordUsed < 7936 ∧
    (∀ p ∈ waitingDb.cas.e2e, p.2.held = []) ∧ rdy.cfl.window = [] ∧ rdy.cfl.latches = [] ∧
    ({ rdy with cfl := { latches := [(16, { valid := true })] } }).cfl.latches = [(16, { valid := true })] ∧
    inService spilled = true ∧ spilled.cfl.window = [ent] ∧ ent.express = false ∧ ent.spilled = true ∧
    spilled.below 1 = true ∧ (spilled.slc 1).state ≠ .quiescing ∧ (spilled.slc 1).live.aweight = 0 := by decide

/-- Slice 1 over its quota of one entry. -/
def overQuota : State :=
  { rdy with
    arr := { cells := [(1024, { prio := 40, slice := 1 }), (1025, { prio := 40, slice := 1 })] }
    cfl := { window := [ent] }
    slcs := [(0, { state := .active }), (1, { state := .active, info := { extUnits := 1 }, live := ⟨16, 1, 16⟩ })] }

/-- The secure manager may ring source 1024, and a RANGE of two sources from it; on its own page the slice itself may. -/
theorem witness_WindowAdmission_rings :
    mayRing rdy single false 1 1024 1 ∧ mapReads rdy 1024 ∧ rdy.ordUsed < 7936 ∧ single.emapErr = false ∧
    mayRing overQuota (range 2) true 1 1024 (dbCount (range 2).data) ∧ overQuota.spills 1 false = true ∧
    overQuota.ordUsed + dbCount (range 2).data ≤ 7936 ∧ (∀ j, j < 2 → overQuota.express (1024 + j) = false) ∧
    inService overQuota = true ∧ overQuota.cfl.dbWait = [] ∧ (rdy.express 13 = true ∧ rdy.expUsed < 256) := by
  refine ⟨⟨by decide, by decide, by decide, by decide, .inr ⟨by decide, by decide, by decide, by decide, by decide⟩⟩,
    fun h => absurd h (by decide), by decide, by decide,
    ⟨by decide, by decide, by decide, by decide, .inr ⟨by decide, by decide, by decide, by decide, by decide⟩⟩,
    by decide, by decide, by decide, by decide, by decide, by decide, by decide⟩

/-- The same from the page of slice 1, by a PID of the structure map. -/
theorem witness_WindowAdmission_page :
    let s : State := { rdy with img := { active := { body with smap := [0, 0, 0, 0, 0, 5 + 2 ^ 20 + 2 ^ 32] } } }
    let r : DbReq := { single with world := false, pid := 5, addr := 2 * 4096, data := 0 }
    mayRing s r false 1 1024 1 :=
  ⟨by decide, by decide, by decide, by decide, .inl ⟨by decide, by decide, by decide, by decide⟩⟩

/-- A firing of source 1024 in resolution, its entry in a state. -/
def resolving (st : SState) : State :=
  { rdy with
    cfl := { res := [⟨1024, 9, .fire, none⟩] }
    arr := { cells := [(1024, { state := st, en := true, prio := 20, route := 2, slice := 1 })] } }

theorem witness_FiringResolves :
    inService (resolving .idle) = true ∧ ((resolving .idle).entry 1024).state ≠ .reserved ∧ unspoiled (resolving .idle) = true ∧
    ((resolving .idle).proxy 1024).live = false ∧ (resolving .idle).endedProxy 1024 = false ∧ 16 ≤ 1024 ∧
    (resolving .idle).weir.mode = .lockstep ∧ ((resolving .idle).arrayRead 1024 cleanAccess 5000000).2 = true ∧
    ((resolving .idle).arrayRead 1024 ⟨.rowLost 3, .clean, .clean, false⟩ 5000000).2 = false ∧
    ({ rdy with cfl := { res := [⟨13, 9, .fire, none⟩] } } : State).cfl.res = [⟨13, 9, .fire, none⟩] ∧
    (resolving .idle).ownerOf ((resolving .idle).entry 1024) ≠ none ∧
    ((resolving .forwarded).entry 1024).state = .forwarded ∧ ((resolving .reserved).entry 1024).state = .reserved ∧
    reportState .fire ((resolving .idle).entry 1024) = .pending ∧
    reportState .fire ((resolving .active).entry 1024) = .activePending ∧
    reportState .fire ((resolving .pending).entry 1024) = .pending := by decide

/-- The same with a fixed route to context 0 of device 1. -/
theorem witness_FiringResolves_remote :
    let s : State := { resolving .idle with
      arr := { cells := [(1024, { en := true, prio := 20, route := 1024, slice := 1 })] }, cas := { role := 1 } }
    s.ownerOf (s.entry 1024) = none ∧ (s.entry 1024).state = .idle ∧ (s.entry 1024).en = true := by decide

/-- Line 16 enabled, as an edge or a level line. -/
def line (trig : Bool) : State := { rdy with arr := { cells := [(16, { en := true, trig := trig, prio := 20 })] } }

/-- Every domain DORMANT. -/
def dormant : State := { rdy with pwr := { dom := (List.range 28).map fun d => (d, 3) } }

theorem witness_WiredLatches :
    isPin 16 = true ∧ allOn (line true) = true ∧ (line true).captured 16 = true ∧
    ((line true).line 16).level ≠ (line true).asserted 16 true ∧ ((line true).entry 16).trig = true ∧
    ((line false).entry 16).trig = false ∧ ((line false).latch 16).valid = false ∧ (line false).fatal.inSeq = false ∧
    (line false).asserted 16 true = true ∧ (line false).asserted 16 false = false ∧
    isPin 999 = true ∧ isPin 13 = true ∧ isPin 14 = false ∧
    ({ line true with fatal := { inSeq := true } }).captured 16 = true ∧
    rdy.domSt dTB ≠ 3 ∧ dormant.domSt dTB = 3 ∧ 2 ≤ dormant.domSt dCFL ∧
    dormant.asserted 13 (dormant.line 13).pin = false ∧ dormant.asserted 13 true = true ∧ dormant.captured 13 = true ∧
    (dormant.pwr.asyncs.any fun a => a.1 == 13) = false := by decide

/-- Line 16 at 1 after polarity, its latch waiting. -/
theorem witness_WiredLatches_merge :
    let s : State := { line false with cfl := { latches := [(16, { valid := true })], lines := [(16, {})] } }
    (s.line 16).level ≠ s.asserted 16 true ∧ (s.latch 16).valid = true ∧ (s.entry 16).trig = false := by decide

/-! ### Witnesses: the Weir and the sluices -/

/-- Source 1024 PENDING in the queue of context 2, of a world and with a deadline budget of 1 µs. -/
def queued (w : Bool) : State :=
  { rdy with
    arr := { cells := [(1024, { state := .pending, en := true, world := w, prio := 20, route := 2, slice := 1, dlb := 1 })]
             pla := [(1024, { linked := true, stamp := 4990000 })] }
    weir := { queues := [(2, { qs := [(20, [1024])] })], wheel := [(5, [1024])] } }

theorem witness_WeirPassesAndVisits :
    inService (queued false) = true ∧ (queued false).grps = [] ∧ (queued false).cas.proxies = [] ∧
    (queued false).weir.mode = .lockstep ∧ (queued false).ctxCand 2 = some ⟨1024, 21, 4990000, none⟩ ∧
    (queued false).mayTake 2 ⟨1024, 21, 4990000, none⟩ = true ∧ ((queued false).ctx 2).pres = none ∧
    (queued false).arr.exits = [] ∧ (queued false).weir.queues = [(2, { qs := [(20, [1024])] })] ∧
    ((queued false).entry 1024).state ≠ .reserved ∧ unspoiled (queued false) = true ∧ (queued false).weir.sleptAt = none ∧
    (queued false).worldOk 2 ⟨1024, 21, 4990000, none⟩ = true ∧ ((queued false).tagsUsed (ctxPort 2)).length < 4096 ∧
    (queued true).worldOk 2 ⟨1024, 21, 4990000, none⟩ = false ∧ ((queued true).entry 1024).sov = false ∧
    (queued false).weirRuns = true ∧ (queued false).weir.linkRebuild = false ∧
    SMap.get [] (queued false).weir.wheel 6 = [] ∧ SMap.get [] (queued false).weir.wheel 5 = [1024] ∧
    (queued false).frozenSrc 1024 = false ∧ (queued false).waiting 1024 = true ∧ 0 < (queued false).budget 1024 ∧
    (queued false).weir.longSleep = none ∧ ((queued false).plaOf 1024).missed = false := by decide

/-- One and two budgets after the stamp. -/
theorem witness_WeirPassesAndVisits_ages :
    let at_ (n : Nat) (p : Bool) : State := { queued false with
      tb := { running := true, count := BitVec.ofNat 64 (4990000 + n) },
      arr := { (queued false).arr with pla := [(1024, { linked := true, promoted := p, stamp := 4990000 })] } }
    (at_ 4000 false).budget 1024 = 4000 ∧ (at_ 4000 false).age ((at_ 4000 false).plaOf 1024).stamp = 4000 ∧
    (at_ 7999 false).age ((at_ 7999 false).plaOf 1024).stamp < 2 * (at_ 7999 false).budget 1024 ∧
    2 * (at_ 8000 true).budget 1024 ≤ (at_ 8000 true).age ((at_ 8000 true).plaOf 1024).stamp ∧
    ((at_ 8000 true).plaOf 1024).promoted = true := by decide

/-- A presentation of source 1024 for context 2. -/
def pres (st : PStage) : Pres :=
  { stage := st, rank := 21, tag := 3, src := 1024, grp := none, ptmo := 10, dhold := 5, wantRev := false, sentRev := false,
    timedOut := false, gone := false }

/-- Context 2 with a presentation, its source PRESENTED, and a message on port 0. -/
def presented (p : Pres) (m : List DMsg) : State :=
  { rdy with
    arr := { cells := [(1024, { state := .presented, en := true, prio := 20, route := 2, slice := 1 })], masked := [] }
    ctxs := [(0, { inUse := true }), (2, { inUse := true, slice := 1, pres := some p })]
    ports := [(0, { uReady := true, down := m })] }

/-- Its PRESENT. -/
def dmsg (r : Bool) : DMsg := DMsg.of r 2 false 20 0 3

theorem witness_PortTransfers :
    let s := presented (pres .queued) [dmsg false]
    let r := presented { pres .queued with wantRev := true } [dmsg false]
    s.fatal.inSeq = false ∧ (s.port 0).down = [dmsg false] ∧ (dmsg false).revoke = false ∧
    (s.ctx 2).pres = some (pres .queued) ∧ (pres .queued).tag = (dmsg false).tag ∧ (pres .queued).gone = false ∧
    (r.ctx 2).pres = some { pres .queued with wantRev := true } ∧ ctxPort 2 = 0 ∧ (r.port 0).inReset = false ∧
    (dmsg true).revoke = true ∧ ((presented (pres .open_) [dmsg true]).port 0).down = [dmsg true] ∧
    (s.port 0).dstall = false := by
  and_intros <;> rfl

/-- An upstream message of tag `k` for context 2. -/
def up (k : Nat) : UpMsg :=
  { port := 0, ctx := 2, tag := BitVec.ofNat 12 k, parOk := true, badOp := false, busy := false, acc := cleanAccess,
    cmp := .equal }

theorem witness_Answers :
    let s := presented (pres .open_) []
    let w := presented (pres .withdrawn) []
    upApplies s (up 3) = true ∧ s.cas.proxies = [] ∧ (up 3).acc = cleanAccess ∧ unspoiled s = true ∧ unspoiled w = true ∧
    (s.ctx (upCtx (up 3))).pres = some (pres .open_) ∧
    (pres .open_).tag = (up 3).tag.toNat ∧ (pres .open_).dhold ≠ 0 ∧ s.arr.masked.contains 1024 = false ∧
    (s.entry 1024).state = .presented ∧ (s.entry 1024).trig = false ∧ s.ownerOf (s.entry 1024) ≠ none ∧
    (pres .open_).tag ≠ (up 4).tag.toNat ∧ upApplies s (up 4) = true ∧ ({ pres .open_ with dhold := 0 }).dhold = 0 ∧
    (w.ctx 2).pres = some (pres .withdrawn) ∧ upApplies w (up 3) = true ∧
    upApplies (presented { pres .open_ with dhold := 0 } []) (up 3) = true := by
  and_intros <;> first | rfl | decide

/-- Context 2 serving source 1024 in a state. -/
def serving (void : Bool) (st : SState) : State :=
  { rdy with
    arr := { cells := [(1024, { state := st, en := true, prio := 20, route := 2, slice := 1 })] }
    ctxs := [(2, { inUse := true, slice := 1, stack := [⟨void, 21, 3, 1024, 9⟩, ⟨false, 60, 4, 1025, 9⟩] })] }

theorem witness_Completes :
    upApplies (serving false .active) (up 3) = true ∧ unspoiled (serving false .active) = true ∧ (serving false .active).cas.proxies = [] ∧
    ((serving false .active).ctx (upCtx (up 3))).stack = [⟨false, 21, 3, 1024, 9⟩, ⟨false, 60, 4, 1025, 9⟩] ∧
    ((serving false .active).entry 1024).state = .active ∧ ((serving false .active).entry 1024).trig = false ∧
    ((serving false .activePending).entry 1024).state = .activePending ∧
    (([⟨false, 21, 3, 1024, 9⟩, ⟨false, 60, 4, 1025, 9⟩] : List Stk).any fun x => x.tag == (up 4).tag.toNat) = true ∧
    (([⟨false, 21, 3, 1024, 9⟩, ⟨false, 60, 4, 1025, 9⟩] : List Stk).any fun x => x.tag == (up 5).tag.toNat) = false ∧
    upApplies (serving true .idle) (up 3) = true ∧
    (serving false .activePending).ownerOf ((serving false .activePending).entry 1024) ≠ none ∧
    upApplies rdy (up 3) = true ∧ (rdy.ctx (upCtx (up 3))).stack = [] ∧
    (({ serving false .active with arr := { cells := [(1024, { state := .active, trig := true })] } } : State).entry
      1024).trig = true := by decide

theorem witness_SluiceTimes :
    let held := presented (pres .held) []
    let late := presented { pres .revoking with timedOut := true } []
    fatal.fatal.inSeq = true ∧ held.fatal.inSeq = false ∧ held.cas.proxies = [] ∧ unspoiled held = true ∧ (held.ctx 2).pres = some (pres .held) ∧
    rdy.arr.masked = [] ∧ (rdy.ctx 2).pres = none ∧ held.ownerOf (held.entry 1024) ≠ none ∧
    (held.entry 1024).state = .presented ∧ (held.entry 1024).trig = false ∧ (pres .open_).timedOut = false ∧
    ((presented (pres .open_) []).ctx 2).pres = some (pres .open_) ∧
    (late.ctx 2).pres = some { pres .revoking with timedOut := true } ∧ (late.entry 1024).state = .presented ∧
    ({ held with arr := { masked := [1024], cells := [(1024, { state := .presented })] } }).arr.masked = [1024] ∧
    (({ held with arr := { masked := [1024], cells := [(1024, { state := .presented })] } }).entry 1024).en = false := by
  decide

/-- An entry of the shared log buffer. -/
def logRec (i : Nat) : LogRec := { slice := i, ctick := 0, astamp := 0, src := 0 }

theorem witness_CompletionLog :
    let s : State := { rdy with slog := [logRec 1, logRec 1] }
    let b (l : List LogRec) : State := { rdy with slog := l, slcs := [(1, { state := .active, log := { newBase := some 33 } })] }
    (1 : BitVec 12).toNat ∈ s.slcs.map Prod.fst ∧ (∀ p ∈ s.slcs, p.2.xferLeft = 0) ∧
    rdy.slog = [] ∧ s.slog = logRec 1 :: [logRec 1] ∧ (∀ x ∈ s.slog, x.slice = (1 : BitVec 12).toNat) ∧
    ((b [logRec 2]).slc 1).log.newBase = some 33 ∧ (∀ x ∈ (b [logRec 2]).slog, x.slice ≠ 1) ∧
    ((b [logRec 1]).slc 1).log.newBase = some 33 ∧ (∃ x ∈ (b [logRec 1]).slog, x.slice = 1) := by decide

/-- A slice whose log entry waits and nothing else; a write answered, and one whose ring has stopped since. -/
theorem witness_CompletionLog_memory :
    let s : State := { rdy with slog := [logRec 1], tb := { rdy.tb with running := false } }
    let w (l : List (Option Nat)) : State := { s with mem := { logs := l } }
    s.pending = [] ∧ s.tb.running = false ∧ s.serving = true ∧ (s.ports.all fun p => p.2.upq.isEmpty) = true ∧
    s.slog = [logRec 1] ∧ (logRec 1).slice = (1 : BitVec 12).toNat ∧ (1 : BitVec 12).toNat ∈ s.slcs.map Prod.fst ∧
    (∀ p ∈ s.slcs, p.2.xferLeft = 0) ∧ s.mem.logs = [] ∧ rdy.memSlices = [] ∧ rdy.mem.logs = [] ∧
    (w [some 1, none]).mem.logs = some (1 : BitVec 12).toNat :: [none] ∧ (w [none]).mem.logs = none :: [] ∧
    (w [some 1]).slog = [] ++ logRec 1 :: [] := by decide

theorem witness_PortResets :
    unspoiled rdy = true ∧ (rdy.port 0).inReset = false ∧ rdy.fatal.inSeq = false ∧ allOn rdy = true ∧ rdy.cas.proxies = [] ∧ ctxPort 2 = 0 ∧
    (({ rdy with ports := [(15, { inReset := true })] }).port 15).inReset = true ∧ rdy.boot.crst = true ∧
    rdy.frozenCtx 2 = false ∧
    ({ rdy with slcs := [(1, { state := .frozen })] } : State).frozenCtx 2 = true ∧
    4 ≤ rdy.boot.step ∧ State.reset.boot.crst = false ∧ State.reset.boot.step < 4 ∧
    ((serving false .active).ctx 2).stack.length = 2 ∧ ((serving false .active).entry 1024).state = .active := by decide

/-! ### Witnesses: the register port -/

/-- A 64-bit access, or a 32-bit one of the low half, at an address. -/
def raw (w : Bool) (wide : Bool) (a : Nat) : RawReq :=
  { world := w, pid := 5, tag := 7, addr := BitVec.ofNat 20 a, size := if wide then 3 else 2,
    strb := if wide then 0xFF else if a % 8 = 4 then 0xF0 else 0x0F, data := 0 }

/-- A register access that waits. -/
def waitingReg : State := { rdy with reg := { waiting := [accReg true sec .selSrc .full 0] } }

theorem witness_RegisterPort :
    State.reset.boot.crst = false ∧ waitingReg.boot.crst = true ∧ waitingReg.reg.waiting ≠ [] ∧
    waitingReg.reg.waiting.length < 16 ∧
    16 ≤ ({ waiting := List.replicate 16 (accReg true sec .selSrc .full 0) } : RegPort).waiting.length ∧
    rawOk (raw true false 0x1000) = true ∧ portFree rdy = true ∧ rawOk (raw true true 4) = false ∧
    rawOk (raw true true 0x10100) = true ∧ 0x10000 ≤ (raw true true 0x10100).addr.toNat ∧
    (rdy.slc (((raw true true 0x10100).addr.toNat - 0x10000) / 256 + 1)).state = .unassigned ∧
    (raw false false 0x7030).addr.toNat < 0x10000 ∧ slotReg 0xFFF8 = none ∧ slotReg 0x1000 = some (.selSrc, false) ∧
    (raw true false 0x1004).addr.toNat % 8 = 4 ∧ rawOk (raw true false 0x1004) = true ∧
    slotReg 0x7030 = some (.safTmr, false) ∧ worldOf .safTmr = .secureWrite ∧ worldOf .keyRootSt = .secure ∧
    slotReg 0x0020 ≠ none ∧ (raw true false 0x1000).world = true := by decide

theorem witness_SelectsAndLookups :
    portFree rdy = true ∧ pageServes rdy sec = true ∧ pageServes rdy { sec with page := some 1 } = true ∧
    sec.page = none ∧ nor.world = false ∧ sec.world = true ∧
    ((bankOf { rdy.reg with sec := { tbHi := some 1 } } sec).tbHi = some 1) := by decide

/-- SEL_SRC names source 1024, its low half staged; slice 1 in a state. -/
def selected (st : SlcState) : State :=
  { rdy with
    reg := { sec := { selSrc := 1024, stagedLo := some 0 } }
    arr := { cells := [(1024, { prio := 20, route := 2, slice := 1 })] }
    slcs := [(0, { state := .active }), (1, { state := st, info := { extUnits := 1 } })] }

/-- A configuration word of priority 30, enabled, on the route of source 1024. -/
def cfgWord : BitVec 64 := BitVec.ofNat 64 (2 ^ 60 + 30 * 2 ^ 49 + 2 * 2 ^ 36)

theorem witness_SourceWrites :
    portFree (selected .active) = true ∧ unspoiled (selected .active) = true ∧ secureOp sec = true ∧ (selected .active).reg.sec.selSrc = 1024 ∧
    isMsg 1024 = true ∧ (selected .active).extentSlice 1024 = some 1 ∧ (selected .active).sourceSlice 1024 = some 1 ∧
    CfgData.full cfgWord = .full cfgWord ∧ (selected .active).reg.sec.stagedLo = some 0 ∧
    cfgWord = (0x103C0020 : BitVec 32).setWidth 64 <<< 32 ||| (0 : BitVec 32).setWidth 64 ∧
    ((selected .active).slc 1).state = .active ∧ ((selected .active).entry 1024).state = .idle ∧
    ((selected .active).entry 1024).trig = false ∧ (selected .active).remoteRoute false 2 = false ∧
    (Entry.ofWord cfgWord).route = ((selected .active).entry 1024).route ∧
    (Entry.ofWord cfgWord).rmode = ((selected .active).entry 1024).rmode ∧
    ((selected .frozen).slc 1).state = .frozen ∧ ((selected .restoring).slc 1).state = .restoring ∧
    portFree (selected .frozen) = true ∧ (selected .active).ordUsed < 7936 ∧
    ((selected .quiesced).slc 1).state ≠ .active := by decide

/-- SEL_TGT names a target; group 511 of slice 1 holds context 0 of this device. -/
def target (n : Nat) : State :=
  { rdy with
    reg := { sec := { selTgt := n } }
    grps := [(511, { defined := true, slice := 1, limit := 2, members := [0] })] }

theorem witness_TargetsAndGroups :
    portFree (target 1023) = true ∧ secureOp sec = true ∧ (target 1023).reg.sec.selTgt < 1024 ∧
    fld (0x00010000 : BitVec 32) 16 10 = 1 ∧ fld (0x03E80FFF : BitVec 32) 16 10 = 1000 ∧
    fld (0 : BitVec 32) 16 10 = 0 ∧ 1000 < fld (0x03E90000 : BitVec 32) 16 10 ∧ 1024 ≤ (target 1024).reg.sec.selTgt ∧
    (target 1535).reg.sec.selTgt = 1024 + 511 ∧ ((target 1535).grp 511).defined = true ∧
    (target 1535).isLocal 2 = true ∧ ((target 1535).ctx (routeCtx 2)).inUse = true ∧
    ctxWorld (routeCtx 2) = ((target 1535).grp 511).world ∧ (2 : BitVec 13) ∉ ((target 1535).grp 511).members ∧
    ((target 1535).grp 511).members.length < ((target 1535).grp 511).limit ∧
    ctxWorld (routeCtx 3) ≠ ((target 1535).grp 511).world ∧ ((target 1535).grp 511).members = [] ++ 0 :: [] := by decide

/-- SEL_SLC names slice 1, in a state. -/
def manage (x : Slc) : State :=
  { rdy with
    reg := { sec := { selSlc := 1 } }
    slcs := [(0, { state := .active }), (1, x)]
    ctxs := [(0, { inUse := true })] }

theorem witness_SliceCommands :
    portFree (manage {}) = true ∧ secureOp sec = true ∧ (manage {}).reg.sec.selSlc = 1 ∧ ((manage {}).slc 1).xfer = .none ∧
    cmdAllowed 1 .active = false ∧ cmdAllowed 3 .active = false ∧ cmdAllowed 8 .unassigned = false ∧
    ((manage { state := .quiesced }).slc 1).state = .quiesced ∧ (manage { state := .quiesced }).pinned 1 = false ∧
    ((manage { state := .quiescing }).slc 1).state = .quiescing ∧ ((manage { state := .active }).slc 1).state = .active ∧
    ((manage { state := .frozen }).slc 1).state = .frozen ∧ (manage { state := .quiesced }).freezeCheck 1 = 0 ∧
    (∀ x ∈ (manage { state := .quiesced }).arr.exits, (manage { state := .quiesced }).extentSlice x.1 ≠ some 1) ∧
    ((manage { state := .frozen, xferLen := 192 }).slc 1).xferLen ≠ 0 ∧
    saveLength ((manage { state := .frozen, xferLen := 192 }).ctxsOf 1).length
        ((manage { state := .frozen, xferLen := 192 }).grpsOf 1).length 0 ≤ 192 ∧
    ((manage { state := .quiesced, clean := true, xferLen := 192 }).slc 1).clean = true := by decide +kernel

theorem witness_SliceTransfers :
    let s (x : Slc) : State := { manage x with slog := [logRec 1] }
    portFree (manage {}) = true ∧ (manage {}).reg.sec.selSlc = (1 : BitVec 12).toNat ∧
    (∃ r ∈ (s {}).slog, r.slice = 1) ∧ (∀ r ∈ (manage {}).slog, r.slice ≠ 1) ∧
    ((manage {}).slc 1).state ≠ .quiescing ∧ ((manage { state := .quiescing }).slc 1).state = .quiescing ∧
    (manage { state := .quiescing }).inflight 1 = 0 ∧
    (∀ c, c < 1024 → ((manage { state := .quiescing }).ctx c).slice = 1 →
      ((manage { state := .quiescing }).ctx c).pres = none) ∧
    fatal.fatal.inSeq = true ∧ (manage {}).fatal.inSeq = false ∧ ((manage {}).slc 1).xfer ≠ .forced ∧
    ((manage { xfer := .forced }).slc 1).xfer = .forced ∧ ((manage { xfer := .restore }).slc 1).xfer = .restore ∧
    ((manage { xfer := .save }).slc 1).xfer = .save ∧ ((manage {}).slc 1).xfer ≠ .save := by decide +kernel

/-- Slice 1 in a save of which the last beats are to be written, no other slice having a transaction to make. -/
def saving : State :=
  manage { state := .frozen, xfer := .save, runAddr := 0x1000, runLen := 192, xferTot := 192,
           saveImg := some ((manage { state := .frozen }).saveImage 1) }

theorem witness_SliceTransfers_request :
    saving.serving = true ∧ (∀ j ∈ saving.slcs.map Prod.fst, j ≠ 1 → saving.memWaits j = false) ∧ saving.logWaits 1 = false ∧
    1 ∈ saving.slcs.map Prod.fst ∧ (saving.slc 1).saveImg = some ((manage { state := .frozen }).saveImage 1) ∧
    (saving.slc 1).xferTot = (saving.slc 1).runLen ∧ (saving.slc 1).xferBytes < (saving.slc 1).runLen ∧
    txLen ((saving.slc 1).runAddr + BitVec.ofNat 48 (saving.slc 1).xferBytes) 192 = 192 ∧
    (saving.slc 1).xfer = .save ∧
    0 < ((manage { xfer := .save, xferBytes := 64 }).slc 1).xferBytes := by
  refine ⟨by decide, by decide, by decide, by decide, rfl, by decide, by decide, by decide, by decide, by decide⟩

/-- Slice 1 in a restore of 192 bytes. -/
def restoring : State := manage { state := .restoring, xfer := .restore, runLen := 192 }

/-- A save image carries its own digest. -/
theorem saveDigest_saveImage (s : State) (i : Nat) : (s.saveImage i).digest = saveDigest (s.saveImage i) := by
  simp only [State.saveImage, saveDigest]

theorem saveLayout_saveImage : saveLayoutOk (restoring.saveImage 1) = true := by
  have h : ((restoring.saveImage 1).digest == saveDigest (restoring.saveImage 1)) = true :=
    beq_iff_eq.2 (saveDigest_saveImage _ _)
  unfold saveLayoutOk
  rw [h]
  decide +kernel

theorem witness_SliceTransfers_images :
    restoring.restoreCheck 1 (restoring.saveImage 1) = 0 ∧
    saveLayoutOk { restoring.saveImage 1 with magic := 0 } = false := by
  refine ⟨?_, by decide +kernel⟩
  unfold State.restoreCheck
  rw [saveLayout_saveImage]
  decide +kernel

/-- Ready to stage the image of `body`. -/
def staging (st : StageSt) : State :=
  { rdy with img := { active := normBody strImage, stage := st, fetchLen := strImage.hdr.length.toNat,
                      stwCompat := compatOf (firmware 2), laneCompat := compatOf (firmware 3), stwVer := 0x00010000,
                      laneVer := 0x00010000, staged := some { strImage with body := normBody strImage },
                      cleared := true } }

theorem witness_Staging :
    portFree rdy = true ∧ sec.page = none ∧ rdy.img.stage = .none ∧ ({ rdy.img with stageLen := 4 }).stageLen ≠ 0 ∧
    (staging .staged).img.stage = .staged ∧ (staging .fetching).serving = true ∧ rdy.img.orphanUnits = [] ∧
    (staging .fetching).saf.stwHalted = false ∧ (staging .fetching).saf.stwStop = false ∧
    (staging .fetching).img.stage = .fetching ∧ (staging .commitPending).img.stage = .commitPending ∧
    inService (staging .commitPending) = true ∧ (staging .commitPending).img.cleared = true ∧
    (staging .commitPending).img.at_ ≤ (staging .commitPending).now ∧
    rdy.now < ({ rdy with img := { rdy.img with at_ := 5000001 } }).img.at_ := by
  and_intros <;> first | rfl | decide

theorem witness_Staging_codes :
    let s := staging .fetching
    s.stageCode { strImage with sigOk := false } s.img.stwCompat s.img.laneCompat ≠ 0 ∧
    ({ strImage.hdr with length := 0 }).length.toNat ≠ s.img.fetchLen ∧ s.changeCode (normBody strImage) = 0 ∧
    s.changeCode { normBody strImage with boot := 1 } ≠ 0 := by decide +kernel

/-- A fetched image that verifies, fits and changes what an epoch may change. -/
theorem stageCode_of (s : State) (m : Image) (stw lane : List (BitVec 64)) (h1 : m.hdr.length.toNat = s.img.fetchLen)
    (h2 : s.verify 1 m s.img.activeGen = 0)
    (h3 : compatTest (compatOf m) stw lane m.hdr.version s.img.stwVer s.img.laneVer = none)
    (h4 : s.changeCode (normBody m) = 0) : s.stageCode m stw lane = 0 := by
  simp [State.stageCode, h1, h2, h3, h4]

theorem witness_Staging_passes :
    (staging .fetching).stageCode strImage (staging .fetching).img.stwCompat (staging .fetching).img.laneCompat = 0 :=
  stageCode_of _ strImage _ _ rfl
    (verify_of _ 1 strImage _ (by decide +kernel) (by decide +kernel) (by decide +kernel) rfl sections_strImage
      (by decide +kernel) (by decide +kernel))
    (by decide +kernel) (by decide +kernel)

theorem witness_SafetyWrites :
    portFree rdy = true ∧ sec.page = none ∧ nor.world = false ∧ sec.world = true ∧ fld (1 : BitVec 32) 0 7 = 1 ∧
    fld (125 : BitVec 32) 0 7 = 125 ∧ fld (0 : BitVec 32) 0 7 = 0 ∧ 125 < fld (126 : BitVec 32) 0 7 ∧
    (fld (3 : BitVec 32) 0 8 + 256 - 0) % 256 ≤ (({ rdy with saf := { head := 3 } }).saf.head + 256 - 0) % 256 ∧
    (({ rdy with saf := { head := 3 } }).saf.head + 256 - 0) % 256 < (fld (4 : BitVec 32) 0 8 + 256 - 0) % 256 := by decide

theorem witness_MailboxOwnership :
    portFree rdy = true ∧ rdy.mbx.owned = false ∧ rdy.mbx.busy = false ∧
    ({ rdy.mbx with owned := true, owner := true }).owned = true ∧ ({ rdy.mbx with busy := true }).busy = true ∧
    ({ rdy.mbx with owned := true, owner := true }).owner = sec.world ∧ nor.world = false ∧
    ({ rdy.mbx with owned := true, owner := true }).owner ≠ nor.world := by decide

theorem witness_LevelRequests :
    portFree rdy = true ∧ nor.page = none ∧
    (1 : BitVec 2).toNat < ({ rdy with lev := { rdy.lev with floor := 2 } }).lev.floor ∧ rdy.lev.floor ≤ (3 : BitVec 2).toNat ∧
    (({ rdy with lev := { lvls := [(3, { retired := true })] } }).lvl 3).retired = true ∧ (rdy.lvl 3).retired = false ∧
    rdy.seqFree = true ∧ ({ rdy with pwr := { phase := 1 } }).seqFree = false ∧ (0 : BitVec 2).toNat = rdy.lev.cur ∧
    rdy.lev.cur < (3 : BitVec 2).toNat ∧ (1 : BitVec 2).toNat < ({ rdy with lev := { rdy.lev with cur := 3 } }).lev.cur ∧
    ({ rdy with lev := { rdy.lev with op := .ageWait 0 } }).seqFree = false := by decide

/-- A request for RETAIN of domain 1. -/
def sleep1 : BitVec 64 := BitVec.ofNat 64 (2 + 2 * 2 ^ 32)

theorem witness_SleepAndHolds :
    let o : State := { rdy with pwr := { owner := 2 } }
    let h : State := { rdy with pwr := { hold := 2, deepest := [(1, 2)] } }
    portFree rdy = true ∧ sec.page = none ∧ fld (0 : BitVec 64) 0 28 = 0 ∧ fld (2 : BitVec 64) 0 28 ≠ 0 ∧
    fld (2 : BitVec 64) 32 2 = 0 ∧ bit sleep1 1 = true ∧ fld sleep1 32 2 = 2 ∧ bit o.pwr.owner 1 = true ∧
    (∀ k, k < 1 → bit sleep1 k = true → bit o.pwr.owner k = false) ∧
    (∀ k, k < 28 → bit sleep1 k = true → bit h.pwr.owner k = false) ∧ bit h.pwr.hold 1 = true ∧
    (∀ k, k < 1 → bit sleep1 k = true → bit h.pwr.hold k = false) ∧ (∀ k, k < 28 → bit sleep1 k = decide (k = 1)) ∧
    2 ≤ h.deepestSt 1 ∧ portFree o = true ∧ portFree h = true := by decide

/-- SEL_LANE names lane 3. -/
def laneSel (x : Lane) : State := { rdy with reg := { sec := { selLane := 3 } }, lanes := [(3, x)] }

theorem witness_LaneRegisters :
    portFree (laneSel {}) = true ∧ (bankOf (laneSel {}).reg sec).selLane = 3 ∧ ((laneSel { dup := true }).lane 3).dup = true ∧
    ((laneSel { state := .training }).lane 3).state = .training ∧ ((laneSel { state := .training }).lane 3).staged = none ∧
    (laneSel { state := .failed, staged := some { swing := 1 } }).laneBusy 3 = false ∧
    ((laneSel { state := .failed, staged := some { swing := 1 } }).lane 3).staged = some { swing := 1 } ∧
    (LaneCfg.test { swing := 1 }) = false ∧ ((laneSel { cfg := { genEn := true, injMode := 1 } }).lane 3).cfg.genEn = true ∧
    ({ rdy with cas := { injEn := true } }).cas.injEn = true ∧ rdy.straps.lcs ≠ 3 ∧ rdy.cas.injEn = false ∧
    4 ≤ (bankOf { rdy.reg with sec := { selLane := 15 } } sec).selLane := by decide

/-! ### Witnesses: power -/

/-- The sequencer in an operation, VGOOD low. -/
def seq (o : SeqOp) : State := { rdy with lev := { rdy.lev with op := o, vgood := false } }

/-- A margin reading of both monitors. -/
def margins (p s : Nat) : Margins := { p := BitVec.ofNat 8 p, s := BitVec.ofNat 8 s, pworst := 0, sworst := 0 }

theorem witness_LevelChanges :
    seqAlone (seq (.lower 1)) = true ∧ (seq (.raise 1)).lev.op = .raise 1 ∧ marginsFine (margins 255 255) = true ∧
    marginsFine (margins 0 0) = false ∧ ((seq (.raise 1)).lvl 1).code < ((seq (.raise 1)).lvl 1).ceil ∧
    (seq (.ageStep 1)).lev.op = .ageStep 1 ∧ rdy.lev.op ≠ .sleepLevel ∧ rdy.lev.vgood = true ∧
    (seq (.raise 1)).lev.vgood = false := by decide

theorem witness_Ageing :
    let top : State := { rdy with lev := { rdy.lev with cur := 3, lvls := [(3, { code := 0x48, ceil := 0x48 })] } }
    dormant.blockState ≠ 0 ∧ allOn rdy = true ∧ rdy.fatal.inSeq = false ∧ rdy.saf.stwHalted = false ∧ rdy.seqFree = true ∧
    seqAlone rdy = true ∧ (∀ k, 1 ≤ k → k ≤ 3 → (rdy.lvl k).code ≤ (rdy.lvl k).ceil) ∧ marginsFine (margins 255 255) = true ∧
    marginsBad (margins 0 0) = true ∧ (rdy.lvl 0).ceil ≤ (rdy.lvl 0).code ∧
    (top.lvl top.lev.cur).ceil ≤ (top.lvl top.lev.cur).code ∧ (∀ k, 1 ≤ k → k ≤ 3 → (top.lvl k).code ≤ (top.lvl k).ceil) ∧
    (seq (.ageWait 1)).lev.op = .ageWait 1 ∧ seqAlone (seq (.ageWait 1)) = true ∧ rdy.saf.stwStop = false ∧
    ({ rdy with lev := { rdy.lev with op := .ageWait 1 } }).lev.vgood = true ∧ rdy.pwr.waking = 0 ∧
    ({ rdy with saf := { stwStop := true } } : State).saf.stwStop = true := by
  refine ⟨by decide, by decide, by decide, by decide, by decide, by decide, ?_, by decide, by decide, by decide, by decide,
    ?_, by decide, by decide, by decide, by decide, by decide, by decide⟩ <;>
  · intro k h1 h3
    obtain rfl | rfl | rfl : k = 1 ∨ k = 2 ∨ k = 3 := by omega
    all_goals decide

/-- A prepare phase for domain `d`. -/
def prepare (d : Nat) (votes : BitVec 28) : State :=
  { rdy with pwr := { phase := 1, named := domBit d, reqWorld := true, votes := votes, targets := [(d, 2)] } }

theorem witness_SleepVotes :
    rdy.pwr.phase ≠ 1 ∧ (prepare 1 0).pwr.phase = 1 ∧ bit (prepare 1 0).pwr.named 1 = true ∧ (prepare 1 0).domIdle 1 = true ∧
    maskSet 0 1 true ≠ ({ (prepare 1 0).pwr with named := 6 }).named ∧ (prepare 1 0).pwr.named = domBit 1 ∧
    (prepare 1 0).pwr.targets = [(1, 2)] ∧ (prepare 1 0).lev.op ≠ .sleepLevel ∧ (prepare 1 0).lev.pend = none ∧
    (prepare 1 0).lev.ageHeld = none ∧ bit (prepare 1 0).pwr.votes 1 = false ∧
    (∀ k, k < 1 → bit (prepare 1 0).pwr.named k = true → bit (prepare 1 0).pwr.votes k = true) ∧
    bit (prepare 26 0).pwr.named 26 = true ∧ bit (prepare 1 0).pwr.req 1 = bit (prepare 1 0).pwr.ack 1 := by decide

theorem witness_StopsAndWakes :
    let stop : State := { rdy with pwr := { phase := 2, named := domBit 26, toStop := [26], targets := [(26, 2)] } }
    let wake : State := { rdy with pwr := { dom := [(26, 2)], waking := domBit 26 } }
    let dozes : State := { rdy with pwr := { doze := domBit 26 } }
    seqAlone rdy = true ∧ rdy.pwr.waking = 0 ∧ stop.lev.pend = none ∧ nothingWaits stop = true ∧ stop.pwr.phase = 2 ∧
    stop.pwr.eddy.count = 0 ∧ bit stop.pwr.req 26 = false ∧ bit (0 : BitVec 28) 26 = false ∧ seqAlone wake = true ∧
    wake.domSt 26 = 2 ∧ wake.pwr.lowered = false ∧ wake.pwr.waking = domBit 26 ∧ bit (domBit 26) 26 = true ∧
    bit rdy.pwr.waking 26 = false ∧ bit wake.pwr.failing 26 = false ∧ allOn rdy = true ∧
    ({ wake with pwr := { dom := [(26, 2)] } }).domSt dTB = 0 ∧ bit dozes.pwr.doze 26 = true ∧ dozes.domSt 26 = 0 ∧
    dozes.domIdle 26 = true ∧ bit rdy.pwr.doze 26 = false ∧ rdy.boot.warmTest = none ∧ stop.boot.warmTest = none := by
  decide

/-- A domain whose wake waits for its PWR_ACK, and one that sleeps and has no wake under way. -/
theorem witness_StopsAndWakes_wake :
    let wake : State := { rdy with pwr := { dom := [(26, 2)], waking := domBit 26, req := BitVec.allOnes 28 } }
    let sleeps : State := { rdy with pwr := { dom := [(26, 2)] } }
    seqAlone wake = true ∧ wake.domSt 26 = 2 ∧ wake.pwr.lowered = false ∧ wake.pwr.waking = domBit 26 ∧
    bit wake.pwr.req 26 = true ∧ bit (BitVec.allOnes 28) 26 = true ∧ wake.boot.warmTest = none ∧
    nothingWaits sleeps = true ∧ sleeps.pwr.phase = 0 ∧ sleeps.domSt 26 = 2 ∧ sleeps.domSt dTB = 0 ∧
    bit sleeps.pwr.waking 26 = false ∧ bit sleeps.pwr.req 26 = bit sleeps.pwr.ack 26 := by decide

/-! ### Witnesses: the timebase -/

/-- Port 0 UP. -/
def linked : State := { rdy with lports := [(0, { state := .up, lanes := { idleTx := false } })] }

/-- A MARKER that names the instants before it. -/
def marker (tB : BitVec 48) : MarkerMsg := { hops := 1, state := 5, seq := 7, rseq := 5, tA := 0, tB := tB }

/-- A device on port 0 that has sent MARKER 5, received MARKER 6 and waits for the TIME frame of MARKER 7. -/
def timed (st : TbState) (tB : BitVec 48) : State :=
  { linked with tb := { running := true, count := 5000000, state := st, marks :=
      [(0, { sent := [(5, 0)], rcvd := [(6, 0)], pending := some (marker tB) })] } }

theorem witness_TimeExchanges :
    rdy.tb.aoWindow = none ∧ ({ rdy.tb with aoWindow := some 1600000 }).aoWindow = some 1600000 ∧
    (rdy.lport 0).state ≠ .up ∧ (linked.lport 0).state = .up ∧ linked.tb.running = true ∧
    ({ linked with tb := {} }).tb.running = false ∧ canSend linked 0 = true ∧ linked.fatal.inSeq = false ∧
    (linked.mark 0).pending ≠ some (marker 0) ∧ ((timed .free 0).mark 0).pending = some (marker 0) ∧
    ((timed .free 0).exchange 0 (marker 0)).isSome = true ∧ (timed .free 0).tb.tracking = false ∧ linked.cas.role = 0 := by
  decide

/-- An exchange of an ALIGNED device within 2 ns. -/
theorem witness_TimeExchanges_offset :
    let s := timed .aligned 0
    s.boot.mode ≠ .starting ∧ s.exchange 0 (marker 0) = some ⟨0, 0, 0⟩ ∧ s.tb.state = .aligned ∧ s.tb.uport = 0 ∧
    (marker 0).hops.toNat < 7 ∧ (marker 0).state.toNat ≠ 0 ∧ (marker 0).state.toNat ≠ 4 := by decide

/-- One that lies more than 2 ns off, and a port in electrical idle. -/
theorem witness_TimeExchanges_wild :
    let s := timed .aligned 0
    ((s.exchange 0 (marker 16384)).any fun x => decide (x.offset < -512 ∨ 512 < x.offset)) = true ∧ s.tb.jumps = 0 ∧
    (linked.lport 0).lanes.idleTx = false ∧
    (({ linked with lports := [(0, { state := .up })] } : State).lport 0).lanes.idleTx = true := by decide

theorem witness_TimeFaults :
    let a := timed .aligned 0
    rdy.tb.tracking = false ∧ a.tb.tracking = true ∧ (∀ q, q < 4 → q ≠ a.tb.uport → a.offers q = false) ∧
    (a.lport a.tb.uport).state = .up ∧ ({ a with lports := [] }.lport 0).state ≠ .up ∧ rdy.tb.state ≠ .holdover ∧
    (timed .holdover 0).tb.state = .holdover ∧ State.reset.tb.running = false ∧ rdy.tb.running = true ∧
    rateFault rdy.tb.aoRatio 25600 = false ∧ rateFault rdy.tb.aoRatio 0 = true ∧ rdy.tb.onAoclk = false ∧
    ({ rdy.tb with onAoclk := true }).onAoclk = true ∧ ({ rdy with cas := { role := 2 } }).cas.role = 2 := by decide

/-! ### Witnesses: lanes -/

/-- Port 3 with lane 15 as physical lane 3 and logical lane 3, in a state; the logical lanes of a MASK in service. -/
def lane15 (x : Lane) (mask : BitVec 4) (st : PortState) : State :=
  { rdy with
    img := { active := { body with cascade := BitVec.ofNat 768 (4 * 2 ^ 160) } }
    lanes := [(15, { x with logical := 3 })]
    lports := [(3, { state := st, lanes := { enabled := true, txMask := mask, rxMask := mask, idleTx := false } })] }

/-- A TS block with a de-emphasis request. -/
def ts (r : Bool) : TsMsg :=
  { phase := 2, logical := 3, lanes := 4, devid := 1, port := 0, deemph := 15, mapped := 4, reqVal := r, pass := false }

theorem witness_LaneTraining :
    let inS := lane15 { state := .inService } 15 .up
    let det := lane15 { state := .detect } 0 .training
    let ret (n : Nat) := lane15 { state := .retraining, tries := n } 7 .up
    let c : LaneCodes := ⟨2, 0, 0⟩
    inS.boot.mode = .ready ∧ (inS.lane 15).state = .inService ∧ (det.lane 15).state = .detect ∧
    (det.lane 15).logical < casLanes det.img.active 3 ∧ (det.lane 15).logical < (ts true).lanes.toNat ∧
    (ts true).reqVal = true ∧ (ts false).reqVal = false ∧ ((ret 1).lane 15).state = .retraining ∧
    ((ret 1).lane 15).upSent = false ∧ ((ret 1).lport 3).state = .up ∧ ((ret 1).lane 15).tries < 2 ∧
    2 ≤ ((ret 2).lane 15).tries ∧ ((ret 2).lport 3).lanes.txMask ≠ 0 ∧
    ((lane15 { state := .failed, tries := 3 } 7 .up).lane 15).state = .failed ∧ (inS.lane 15).state ≠ .failed ∧
    (inS.lport 3).state ≠ .down ∧ ((lane15 {} 0 .down).lport 3).state = .down ∧ inS.cas.excluded = false ∧
    inS.laneAt 3 3 = some 15 ∧ (∃ k, k < 4 ∧ k ≠ 3 ∧ bit (inS.lport 3).lanes.txMask k = true) ∧
    (det.lane 15).state ≠ .inService ∧ (inS.lport 3).lanes.idleRx = false ∧ (inS.lane 15).clamped c = c ∧
    (inS.lane 15).clamped ⟨3, 0, 0⟩ ≠ ⟨3, 0, 0⟩ ∧ inS.otherIn 3 15 = false := by decide +kernel

/-- Attempts that pass and fail, a FAILED lane with three attempts, and 8 invalid headers on a lane with lock. -/
theorem witness_LaneTraining_attempts :
    let inS := lane15 { state := .inService, blockLock := true } 15 .up
    let failed := lane15 { state := .failed, tries := 3 } 7 .up
    attemptPasses (attemptOf true 6000) = true ∧ attemptPasses (attemptOf false 0) = false ∧
    attemptPasses (attemptOf true 6001) = false ∧ 3 ≤ (failed.lane 15).tries ∧
    inS.fatal.inSeq = false ∧ (inS.lane 15).blockLock = true ∧ (inS.lane 15).cfg.loop = 0 ∧
    (List.replicate 8 (0 : BitVec 130)).length = 8 ∧ (inS.lane 15).rxInv = false ∧
    ∀ b ∈ List.replicate 8 (0 : BitVec 130), syncOk (blkHdr b) = false := by
  refine ⟨by decide, by decide, by decide, by decide, rfl, by decide +kernel, by decide +kernel, rfl, by decide +kernel,
    fun b h => ?_⟩
  rw [List.eq_of_mem_replicate h]; decide

theorem witness_LaneExchange :
    let s := lane15 { state := .training, upSent := true } 7 .up
    let d : State := { s with lports := [(3, { state := .up, lanes := { txMask := 7, rxMask := 7, down := some (3, .lost) } })] }
    rdy.boot.mode = .ready ∧ (rdy.lport 3).state = .disabled ∧ (s.lport 3).state ≠ .disabled ∧
    (∀ l ∈ portLanes 3, (s.lane l).deferred = false) ∧ (s.lport 3).lanes.idleTx = false ∧ rdy.laneAt 3 3 = none ∧
    s.laneAt 3 3 = some 15 ∧ (s.lane 15).state ≠ .inService ∧ (s.lane 15).upSent = true ∧
    ((lane15 { state := .training } 7 .up).lane 15).upSent = false ∧
    ((lane15 { state := .inService } 15 .up).lane 15).state = .inService ∧
    (∃ j, j < 4 ∧ j ≠ 3 ∧ bit (s.lport 3).lanes.txMask j = true ∧
      (bit (s.lport 3).lanes.rxMask j = true → bit (7 : BitVec 4) j = true)) ∧
    (s.lport 3).lanes.down = none ∧ (d.lport 3).lanes.down = some (3, .lost) ∧
    (s.lport 3).lanes.txMask &&& ~~~(7 : BitVec 4) = 0 ∧ (s.lane 15).state ≠ .disabled ∧
    bit (8 : BitVec 4) (s.lane 15).logical = true := by decide +kernel

theorem witness_IdleAndPrbs :
    let s := lane15 { state := .idle } 7 .up
    let g : State := { rdy with lanes := [(3, { state := .detect, cfg := { injMode := 2, genEn := true, chkEn := true } })]
                                lcnts := [(3, {})] }
    let w : State := { s with lports := [(3, { state := .up, lanes := { idleTx := true, waking := true } })] }
    (rdy.lport 3).state = .disabled ∧ (s.lport 3).state ≠ .disabled ∧ allOn s = true ∧ (s.lport 3).lanes.idleTx = false ∧
    (w.lport 3).lanes.idleTx = true ∧ (s.lport 3).lanes.waking = false ∧ (w.lport 3).lanes.waking = true ∧
    (rdy.lane 15).state = .disabled ∧ (g.lane 3).state = .detect ∧ (s.lane 15).state = .idle ∧
    (rdy.lane 3).cfg.injMode ≠ 2 ∧ (3 : BitVec 4).toNat < 4 ∧ (g.lane 3).cfg.injMode = 2 ∧ (g.lane 3).cfg.genEn = true ∧
    (g.lane 3).cfg.chkEn = true ∧ (g.lcnt 3).sync = false ∧ 4 ≤ (4 : BitVec 4).toNat ∧
    ({ g with lcnts := [(3, { sync := true })] }.lcnt 3).sync = true := by decide

/-- Valid headers for lock. -/
theorem witness_IdleAndPrbs_blocks :
    let s := lane15 { state := .idle } 7 .up
    let g : State := { rdy with lanes := [(3, { state := .detect, cfg := { chkEn := true } })] }
    (List.replicate 64 (1 : BitVec 130)).length = 64 ∧ (g.lane 3).blockLock = false ∧
    (g.lane 3).cfg.loop = 0 ∧ (g.lane 3).rxInv = false ∧ (s.lane 15).blockLock = false ∧ (s.lane 15).cfg.loop = 0 ∧
    (s.lane 15).rxInv = false ∧ (g.lane 3).hdrs.length + (List.replicate 63 (1 : BitVec 130)).length < 64 ∧
    s.fatal.inSeq = false ∧ ∀ b ∈ List.replicate 64 (1 : BitVec 130), syncOk (blkHdr b) = true := by
  refine ⟨List.length_replicate, rfl, rfl, rfl, rfl, rfl, rfl, ?_, rfl, fun b h => ?_⟩
  · rw [List.length_replicate]; decide
  · rw [List.eq_of_mem_replicate h]; decide

/-- Checkers of lane 3 that start anew and that are in SYNC with a generator. -/
def checking (x : LaneCnt) : State :=
  { rdy with lanes := [(3, { state := .detect, cfg := { chkEn := true } })], lcnts := [(3, x)] }

theorem witness_IdleAndPrbs_checker :
    let ones := List.replicate 40 true
    let s := checking { sync := true, chk := ones.take 7 }
    (3 : BitVec 4).toNat < 4 ∧ ((checking {}).lane 3).cfg.chkEn = true ∧ ((checking {}).lane 3).cfg.loop = 0 ∧
    (prbsTaps ((checking {}).lane 3).cfg.poly).1 = 7 ∧ ((checking {}).lcnt 3).bits < 2 ^ 48 ∧
    ((checking {}).lcnt 3).sync = false ∧ ((checking {}).lcnt 3).chk = [] ∧ ((checking {}).lcnt 3).run = 0 ∧
    3 * 7 ≤ 64 ∧ 20 < 3 * 7 ∧ (s.lcnt 3).sync = true ∧ (s.lcnt 3).chk = ones.take (prbsTaps (s.lane 3).cfg.poly).1 ∧
    (s.lcnt 3).wrong = [] ∧ ((checking {}).lane 3).rxInv = false ∧
    ((({ checking {} with lanes := [(3, { cfg := { loop := 2 } })] } : State).lane 3).cfg.loop = 2) := by decide

/-- No lane of port 3 is in service or deferred. -/
theorem witness_IdleAndPrbs_lanes :
    let s := lane15 { state := .idle } 7 .up
    (∀ k, k / 4 = 3 → (s.lane k).state ≠ .inService) ∧ ∀ k, k / 4 = 15 / 4 → (s.lane k).deferred = false := by
  refine ⟨fun k _ => ?_, fun k _ => ?_⟩ <;>
  · by_cases h : k = 15
    · subst h
      decide
    · simp [State.lane, lane15, SMap.get, h]

/-! ### Witnesses: link ports and the cascade -/

/-- Session keys. -/
def sess : SessKeys := ⟨1, 2, 3, 4, 5, 6⟩

/-- Device 1, whose port 0 leads to port 0 of device 0, in an authentication that has reached a step. -/
def authAt (n : Nat) (h : Option HelloMsg) : State :=
  { rdy with
    straps := { rdy.straps with devid := 1 }
    lports := [(0, { state := .auth })]
    lauth := [(0, { step := n, hello := h })] }

/-- A HELLO of a device and port. -/
def hello (d p : Nat) : HelloMsg :=
  { nonce := 0, devid := BitVec.ofNat 3 d, port := BitVec.ofNat 2 p, hwRole := 0, epoch := 0, bootcnt := 1, lanes := 4,
    hwver := 0x200 }

theorem witness_Authentication :
    let c : CertMsg := ⟨[1, 2], true, 0, true, true, true, true, 9⟩
    fatal.fatal.inSeq = true ∧ fatal.boot.mode = .ready ∧ (authAt 0 none).fatal.inSeq = false ∧
    (rdy.lport 0).state ≠ .auth ∧ ((authAt 0 none).lport 0).state = .auth ∧ ((authAt 1 none).lauthOf 0).step ≠ 0 ∧
    ((authAt 0 none).lauthOf 0).step = 0 ∧ (hello 1 0).devid.toNat = (authAt 0 none).dev ∧
    (hello 0 0).devid.toNat ≠ (authAt 0 none).dev ∧ (hello 2 0).devid.toNat ≠ casNbrDev body 0 ∧
    (hello 0 3).port.toNat ≠ casNbrPort body 0 ∧ (hello 0 0).devid.toNat = casNbrDev (authAt 0 none).img.active 0 ∧
    (hello 0 0).port.toNat = casNbrPort (authAt 0 none).img.active 0 ∧ ((authAt 1 none).lauthOf 0).step = 1 ∧
    c.fingerprint = casFingerprint body ∧ ({ c with sigOk := false }).sigOk = false ∧
    ((authAt 2 (some (hello 0 0))).lauthOf 0).step = 2 ∧
    ((authAt 2 (some (hello 0 0))).lauthOf 0).hello = some (hello 0 0) ∧ (authAt 2 none).usable 0 = true ∧
    (authAt 2 none).usable 5 = true ∧ ((authAt 3 none).lauthOf 0).step = 3 := by decide +kernel

theorem witness_Authentication_headwater :
    let hw : State := { authAt 3 none with cas := { role := 2 } }
    hw.boot.mode = .ready ∧ hw.fatal.inSeq = false ∧ (hw.lport 0).state = .auth ∧ (hw.lauthOf 0).step = 3 ∧
    hw.tb.state = .free ∧ hw.tb.onAoclk = false := by decide +kernel

/-- A frame of device 0 for device `d`. -/
def frame (d : Nat) (q : BitVec 12) : Frame :=
  { urgent := false, nak := false, replay := false, seq := q, ack := 0, dst := BitVec.ofNat 3 d, org := 0, e2e := 0,
    body := .ack 0 }

theorem witness_Batches :
    let b : State := { linked with lports := [(0, { state := .up, batch := [frame 1 0], replayBuf := [frame 1 0] })] }
    let k : State := { linked with lauth := [(0, { keys := some sess })] }
    let f (n : Nat) : State := { linked with lports := [(0, { state := .up, failRun := n })] }
    linked.boot.mode = .ready ∧ (linked.lport 0).batch = [] ∧ (b.lport 0).batch ≠ [] ∧ fatal.fatal.inSeq = true ∧
    (rdy.lport 0).state ≠ .up ∧ (rdy.lport 0).state ≠ .quarantined ∧ (linked.lauthOf 0).accepted = [] ∧
    (linked.lport 0).replayBuf = [] ∧ (linked.lport 0).relayq = [] ∧ (k.lauthOf 0).keys = some sess ∧
    (frame 0 0).nak = false ∧ (frame 0 0).seq = (linked.lport 0).expect ∧ (frame 0 0).dst.toNat = linked.dev ∧
    (∃ x ∈ [(⟨0⟩ : RxFrame)], x.crcOk = false) ∧ ((f 1).lport 0).failRun < 2 ∧ 2 ≤ ((f 2).lport 0).failRun ∧
    (b.lport 0).replayBuf ≠ [] ∧ (b.lport 0).stalls < 64 ∧
    64 ≤ ({ b with lports := [(0, { state := .up, stalls := 64, replayBuf := [frame 1 0] })] }.lport 0).stalls ∧
    rdy.upPorts = [] ∧ linked.upPorts ≠ [] ∧ (linked.e2eOf 1).kept.length ≤ 1024 := by decide +kernel

/-- A frame as its 32 bytes, which carry it and their CRC. -/
theorem witness_Batches_frame :
    let y : RxFrame := ⟨frameWords (frame 0 0)⟩
    y.crcOk = true ∧ y.frame = frame 0 0 := by decide +kernel

theorem witness_AlarmsAndSummaries :
    let k : State := { linked with lauth := [(0, { keys := some sess, qRepeat := [(frame 1 0, 1)] })], cas := { role := 1 } }
    (rdy.lport 0).state ≠ .up ∧ (rdy.lport 0).state ≠ .quarantined ∧ (k.lport 0).state = .up ∧ fatal.fatal.inSeq = true ∧
    k.fatal.inSeq = false ∧ (linked.lauthOf 0).keys = none ∧ (k.lauthOf 0).keys = some sess ∧
    k.knownAlarm 1 31 5 = false ∧ (k.latch 14).valid = false ∧ (k.latch 15).valid = false ∧ rdy.cas.role = 0 ∧
    (linked.lauthOf 0).qRepeat = [] ∧ k.cas.role ≠ 0 ∧ (k.lauthOf 0).qRepeat = (frame 1 0, 1) :: [] ∧ canSend k 0 = true ∧
    (0 : BitVec 3).toNat = k.dev ∧ (7 : BitVec 3).toNat ≠ k.dev := by decide

/-- A TOPO frame of headwater `h` in an epoch. -/
def topo (h e : Nat) : TopoMsg := { epoch := BitVec.ofNat 8 e, hw := BitVec.ofNat 3 h, members := 3, data := 0 }

theorem witness_Topology :
    let hw : State := { linked with cas := { role := 2, serials := [(7, 5)] } }
    let sb : State :=
      { linked with
        cas := { role := 3 }
        img := { active := { body with cascade := BitVec.ofNat 768 (3 + 1 * 2 ^ 40) } } }
    linked.boot.mode = .ready ∧ fatal.fatal.inSeq = true ∧ linked.fatal.inSeq = false ∧ (rdy.lport 0).state ≠ .up ∧
    (linked.lport 0).state = .up ∧ (topo 1 1).hw.toNat ≠ linked.dev ∧ linked.mustFollow (topo 1 1) = true ∧
    (topo 0 1).hw.toNat = linked.dev ∧ linked.mustFollow (topo 1 0) = false ∧ linked.cas.role ≠ 2 ∧ hw.cas.role = 2 ∧
    SMap.get 0 hw.cas.serials 1 = 0 ∧ SMap.get 0 hw.cas.serials 7 = 5 ∧ (6 : BitVec 96) ≠ 5 ∧ canSend hw 0 = true ∧
    sb.cas.role = 3 ∧ casStandby sb.img.active ≠ 0xFF ∧
    casStandby { body with cascade := BitVec.ofNat 768 (0xFF * 2 ^ 40) } = 0xFF := by decide +kernel

theorem witness_Topology_own :
    let hw : State := { linked with cas := { role := 2 } }
    (0 : BitVec 3).toNat = hw.dev ∧ (Config.deviceSerial = 0 ∨ Config.deviceSerial = Config.deviceSerial) :=
  ⟨by decide, .inr rfl⟩

/-- A frame header of device 1, next in order. -/
def hdr1 : RxHdr := { org := 1, e2e := 0 }

/-- The store of unit 1 with a proxy of source 3 of device 1 at source 1,536. -/
def store (st : SState) (handoff : Bool) : State :=
  { linked with
    cas := { role := 1, pxUnits := [1], proxies := [(1536, { live := true, gsrc := 2 ^ 21 + 3, handoff := handoff })] }
    arr := { cells := [(1536, { state := st, en := true, prio := 20, route := 2, slice := 1 })] } }

/-- An SSA word for context 2. -/
def proxyWord : BitVec 64 := BitVec.ofNat 64 (2 ^ 60 + 20 * 2 ^ 49 + 2 * 2 ^ 36)

theorem witness_ProxiesAtTarget :
    let s := store .idle false
    e2eNext s hdr1 = true ∧ routeDev (Entry.ofWord proxyWord).route = s.dev ∧ (Entry.ofWord proxyWord).trig = false ∧
    (Entry.ofWord proxyWord).world = ctxWorld (routeCtx (Entry.ofWord proxyWord).route) ∧
    (s.ctx (routeCtx (Entry.ofWord proxyWord).route)).inUse = true ∧ e2eNext linked hdr1 = true ∧ s.memberOk 2 = true ∧
    s.findProxy 4 = none ∧ s.findProxy (2 ^ 21 + 3) = some 1536 ∧ isMsg 1536 = true ∧ (s.entry 1536).state = .idle ∧
    (s.entry 1536).trig = false ∧ s.sliceActive (s.entry 1536).slice.toNat = true ∧ s.ordUsed < 7936 ∧
    ({ s with slcs := [] }).sliceActive 1 = false ∧ rdy.cas.role = 0 ∧ (store .pending true).cas.role ≠ 0 ∧
    ((store .pending true).proxy 1536).handoff = true ∧ ((store .pending true).entry 1536).state = .pending ∧
    ((store .presented true).entry 1536).state ≠ .pending := by decide +kernel

/-- The store is full without a unit, has room with one; its proxies are numbered from its lowest unit (R353). -/
theorem witness_ProxiesAtTarget_store :
    linked.freeProxies = [] ∧ (store .idle false).freeProxies ≠ [] ∧ (store .pending true).proxySrc 0 = some 1536 ∧
    (store .pending true).proxySrc 512 = none := by decide +kernel

/-- Source 1024 FORWARDED to device 1. -/
def forwarded (f : Fwd) : State :=
  { linked with
    cas := { role := 1, fwds := [(1024, some f)] }
    arr := { cells := [(1024, { state := .forwarded, en := true, prio := 20, route := 2, slice := 1 })] } }

/-- The home's record of a firing sent with its OPEN, or of none. -/
def fwdOf (p : Option Nat) (st : Option (BitVec 32)) : Fwd := ⟨1, p, none, st, none, false⟩

theorem witness_ForwardedAtHome :
    let s := forwarded (fwdOf none none)
    fatal.fatal.inSeq = true ∧ s.fatal.inSeq = false ∧ rdy.upPorts = [] ∧
    64 < (({ hdr1 with e2e := 65 }).e2e.toNat + 65536 - (s.e2eOf 1).exp) % 65536 ∧
    ({ s with cas := { e2e := [(1, { held := [frame 0 0] })] } }.e2eOf 1).held = [frame 0 0] ∧ e2eNext s hdr1 = true ∧
    (1025 : BitVec 24).toNat % 2 ^ 21 = 1025 ∧ s.fwd 1025 = none ∧ (1024 : BitVec 24).toNat % 2 ^ 21 = 1024 ∧
    (1024 : BitVec 24).toNat / 2 ^ 21 = s.dev ∧ (2 ^ 21 : BitVec 24).toNat / 2 ^ 21 ≠ s.dev ∧ unspoiled s = true ∧
    (s.entry 1024).state = .forwarded ∧ (s.entry 1024).trig = false ∧ s.fwd 1024 = some (fwdOf none none) ∧
    s.remoteRoute (s.entry 1024).rmode (s.entry 1024).route = false ∧ (s.entry 1024).sov = false ∧
    fld (0 : BitVec 8) 4 3 ≠ 1 ∧ bit (0 : BitVec 8) 2 = false ∧
    (forwarded (fwdOf none (some 9))).fwd 1024 = some (fwdOf none (some 9)) ∧
    ((forwarded (fwdOf none (some 9))).entry 1024).trig = false := by decide

/-! ### Results: one step of a small state, the expected value from the rule named -/

/-- R149, R208: an accepted TAKE pushes the source, which becomes ACTIVE. -/
theorem test_take_active : ((got (exec (.take (up 3)) (presented (pres .open_) []))).entry 1024).state = .active := by decide

theorem test_take_pushes :
    ((got (exec (.take (up 3)) (presented (pres .open_) []))).ctx 2).stack.map (·.src) = [1024] := by decide

/-- A TAKE of another tag changes no source. -/
theorem test_take_other_tag :
    ((got (exec (.take (up 4)) (presented (pres .open_) []))).entry 1024).state = .presented := by decide

/-- R149: COMPLETE of an edge source: ACTIVE becomes IDLE, ACTIVE_PENDING becomes PENDING and is presented by the next
pass. -/
theorem test_complete_idle : ((got (exec (.complete (up 3)) (serving false .active))).entry 1024).state = .idle := by decide

theorem test_complete_pending :
    ((got (exec (.complete (up 3)) (serving false .activePending))).entry 1024).state = .presented := by decide

/-- R149: a firing of an IDLE source makes it PENDING; of an ACTIVE one ACTIVE_PENDING. -/
theorem test_fire_idle :
    ((got (exec (.firingResolution ⟨⟨.clean, .clean, .clean, false⟩, .equal⟩) (resolving .idle))).entry 1024).state = .pending := by decide

theorem test_fire_active :
    ((got (exec (.firingResolution ⟨⟨.clean, .clean, .clean, false⟩, .equal⟩) (resolving .active))).entry 1024).state = .activePending := by decide

/-- R115: a rising edge of an edge line latches one event; the latch is of that line. -/
theorem test_capture : ((got (exec (.wiredCapture 16 true) (line true))).latch 16).valid = true := by decide

/-- R267: the loss of the PLL leaves the timebase FREE on AOCLK. -/
theorem test_pll_lost : (got (exec .pllLost rdy)).tb.onAoclk = true := by decide

/-- R9: a pulse of 7 AOCLK cycles has no effect. -/
theorem test_pulse : exec (.coldReset 7) rdy = .next rdy := rfl

/-- R447: SEL_SRC holds what was written. -/
theorem test_selSrc : (got (exec (.selSrcWrite sec 1024) rdy)).reg.sec.selSrc = 1024 := by decide

/-- R400: SAF_TMR belongs to the secure world for writes; a normal write leaves it. -/
theorem test_safTmr : (got (exec (.safTmrWrite nor 1) rdy)).saf.tmr = 125 := by decide

theorem test_safTmr_secure : (got (exec (.safTmrWrite sec 1) rdy)).saf.tmr = 1 := by decide

/-- FIPS 180-4, the one-block example of SHA-384: the digest of the bytes 61 62 63 (R294). -/
theorem test_sha384 :
    sha384 [0x61, 0x62, 0x63] =
      0xCB00753F45A35E8BB5A03D699AC65007272C32AB0EDED1631A8B605A43FF5BED8086072BA1E7CC2358BAECA134C825A7 := by
  decide +kernel

/-- IEEE 1149.1 (R52): five edges with TMS 1 lead to Test-Logic-Reset, a scan of IR and DR to Run-Test/Idle. -/
theorem test_tap_walk :
    TapCtl.testLogicReset.walk tapScan = .runTestIdle ∧ TapCtl.shiftDr.walk tapReset = .testLogicReset ∧
    TapCtl.pauseIr.walk tapReset = .testLogicReset := by decide

/-- R322, R323: the bits of the PRBS7 generator take its checker into SYNC after three times its degree, with no error. -/
theorem test_prbs_sync :
    (((got (exec (.prbsSync ⟨3, (prbsRun 0 false 21 (List.replicate 40 true)).2⟩) (checking {}))).lcnt 3).sync,
      ((got (exec (.prbsSync ⟨3, (prbsRun 0 false 20 (List.replicate 40 true)).2⟩) (checking {}))).lcnt 3).sync) =
    (true, false) := by decide +kernel

/-- R163: an uncorrectable word that an access finds is counted for its array, and stands no longer. -/
theorem test_upset :
    let t := got (exec (.aryRd false 1024) (upset .uncorrectable))
    (t.stripe false).ue = 1 ∧ t.upsets = [] := by decide +kernel

/-- R403, R428: a stopped core clock is class 0x12, here with the reaction FATAL. -/
theorem test_clock_fault : (got (exec (.clockFault .sclk true) { rdy with saf := { react := [(0x12, 3)] } })).fatal.inSeq = true := by
  decide

/-- R259: a frame sent on an UP port takes the next link sequence number. -/
theorem test_marker_send : ((got (exec (.markerSend 0) linked)).lport 0).seq = 1 := by decide

end Sys2Proof.Tests
end

section
/-!
Proofs of the family "boundary": the doorbell ports (R21 to R25, R125, R127). How one write goes through its port while
no other waits, and the refusal of an access whose form R21 does not admit.
-/

namespace Sys2Proof.Machine

/-! ### The form of an access (R21, check 1 of R125) -/

/-- The statement's reading of R21 and the model's first check are each other's negation. -/
theorem Safety.dbForm_eq_not_dbFormatOk (r : DbReq) (range : Bool) : Safety.dbForm r range = !dbFormatOk r range := by
  cases range <;> simp [Safety.dbForm, dbFormatOk, fld, bne]

/-- A request without strobes has no form of R21. -/
theorem Safety.dbForm_of_no_strobes (r : DbReq) (range : Bool) : Safety.dbForm { r with strb := 0 } range = true := by
  cases range <;> simp [Safety.dbForm]

/-- Check 1 comes first: an access of another form fails in every state, for its form. -/
theorem State.checkDb_of_dbForm (s : State) (r : DbReq) (range : Bool) (h : Safety.dbForm r range = true) :
    s.checkDb r range = .error { cause := .format, slice := none, global := true } := by
  rw [Safety.dbForm_eq_not_dbFormatOk] at h
  simp only [State.checkDb, h, if_true]

/-- The checks read nothing of the confluence, so a write meets the same answer before and after its transfer. -/
theorem State.checkDb_onCfl (s : State) (f : Cfl → Cfl) (r : DbReq) (range : Bool) :
    (s.onCfl f).checkDb r range = s.checkDb r range := rfl

theorem State.checkDb_drawn (s : State) (r : DbReq) (range : Bool) : s.drawn.checkDb r range = s.checkDb r range := rfl

/-! ### A refusal (R127, R128) -/

/-- A refusal that no slice counts changes the confluence alone: its counters, the record of the first refusal and the
port's answer. -/
theorem State.refuseDb_spec (s : State) (r : DbReq) (k : Cause) :
    ∃ c, s.refuseDb r { cause := k, slice := none, global := true } = { s with cfl := c } ∧
      c.db = SMap.upd [] s.cfl.db r.port.toNat (fun l => keepResp 32 l { tag := r.tag, fault := true, data := 0 }) ∧
      c.window = s.cfl.window ∧ c.refCnt = s.cfl.refCnt.add k := by
  simp only [State.refuseDb, if_true]
  split
  · exact ⟨_, rfl, rfl, rfl, rfl⟩
  · exact ⟨_, rfl, rfl, rfl, rfl⟩

/-- A write that fails a check is answered at once and does not wait. -/
theorem State.runDb_of_error (s : State) (w : DbWait) (keep : Nat) (a : RefAt) (hc : w.checked = false)
    (h : s.checkDb w.req w.range = .error a) : s.runDb w keep = (s.refuseDb w.req a, none) := by
  simp [State.runDb, hc, h]

/-! ### One write on its port, no other waiting (R22 to R25, R130) -/

section OneWrite

variable (s : State) (w : DbWait)

/-- A write on the request channel alone counts for no port's outstanding requests. -/
theorem State.outstanding_of_offered (hw : s.cfl.dbWait = [w]) (hn : w.transferred = false) (p : BitVec 2) :
    s.outstanding p = 0 := by simp [State.outstanding, hw, hn]

/-- A port is ready for a write that will be refused, the window full or not (R23, R130). -/
theorem State.dbReady_of_error (a : RefAt) (hw : s.cfl.dbWait = [w]) (hn : w.transferred = false)
    (h : s.checkDb w.req w.range = .error a) : s.dbReady w = true := by
  simp [State.dbReady, State.passesFull, State.outstanding_of_offered s w hw hn, h]

/-- The transfer stamps the write and leaves it where it waits (R140). -/
theorem State.transferDb_of_offered (hw : s.cfl.dbWait = [w]) (hn : w.transferred = false) :
    s.transferDb w = (s.onCfl fun c =>
      { c with dbWait := [{ w with transferred := true, stamp := s.stampHclk }] }).drawn := by
  simp [State.transferDb, State.onCfl, hw, hn]

/-- An edge transfers the write that its port is ready for: three of the four ports have nothing to transfer. -/
theorem State.edgeDb_of_ready (hw : s.cfl.dbWait = [w]) (hn : w.transferred = false) (hr : s.dbReady w = true) :
    s.edgeDb = s.transferDb w := by
  have find (p : Nat) : (s.cfl.dbWait.find? fun x => !x.transferred && x.req.port.toNat == p) =
      if w.req.port.toNat = p then some w else none := by
    by_cases hp : w.req.port.toNat = p <;> simp [hw, hn, hp]
  simp only [State.edgeDb, find]
  have hlt : w.req.port.toNat < 4 := w.req.port.isLt
  generalize w.req.port.toNat = q at hlt
  obtain rfl | rfl | rfl | rfl : q = 0 ∨ q = 1 ∨ q = 2 ∨ q = 3 := by omega
  all_goals simp [List.range_succ, hr]

/-- A write that has not transferred takes nothing. -/
theorem State.takeDb_of_offered (hw : s.cfl.dbWait = [w]) (hn : w.transferred = false) : s.takeDb = s := by
  simp only [State.takeDb, hw, List.foldl_cons, List.foldl_nil, State.takeOne, hn, Bool.not_false, Bool.true_or,
    if_true, List.nil_append, State.onCfl]
  rw [← hw]

/-- A transferred write that fails a check is refused, and nothing waits any more. -/
theorem State.takeDb_of_error (a : RefAt) (hw : s.cfl.dbWait = [w]) (ht : w.transferred = true)
    (hc : w.checked = false) (h : s.checkDb w.req w.range = .error a) :
    s.takeDb = (s.refuseDb w.req a).onCfl fun c => { c with dbWait := [] } := by
  simp [State.takeDb, hw, State.takeOne, ht, State.runDb_of_error s w _ a hc h]

/-- Where the confluence serves, a write that its port is ready for transfers, and takes what it can. -/
theorem State.pumpDb_of_ready (hw : s.cfl.dbWait = [w]) (hn : w.transferred = false) (hr : s.dbReady w = true)
    (hs : s.serving = true) (hm : s.boot.mode = .ready) (ha : s.avail dCFL = true) :
    s.pumpDb = (s.transferDb w).takeDb := by
  have grows : ((s.transferDb w).cfl.dbWait.filter fun x => x.transferred).length ≠
      (s.cfl.dbWait.filter fun x => x.transferred).length := by
    simp [State.transferDb_of_offered s w hw hn, State.drawn, hw, hn]
  have one : s.cfl.dbWait.length = 1 := by rw [hw]; rfl
  simp only [State.pumpDb, hs, hm, ha, one, State.takeDb_of_offered s w hw hn, State.pumpRounds,
    State.edgeDb_of_ready s w hw hn hr, if_neg grows, beq_self_eq_true, Bool.and_self, if_true]

/-- Where the confluence serves, a write that fails a check transfers and is refused. -/
theorem State.pumpDb_of_error (a : RefAt) (hw : s.cfl.dbWait = [w]) (hn : w.transferred = false)
    (hc : w.checked = false) (h : s.checkDb w.req w.range = .error a) (hs : s.serving = true)
    (hm : s.boot.mode = .ready) (ha : s.avail dCFL = true) :
    s.pumpDb = ((s.transferDb w).refuseDb w.req a).onCfl fun c => { c with dbWait := [] } := by
  rw [State.pumpDb_of_ready s w hw hn (State.dbReady_of_error s w a hw hn h) hs hm ha,
    State.transferDb_of_offered s w hw hn]
  exact State.takeDb_of_error _ { w with transferred := true, stamp := s.stampHclk } a rfl rfl hc
    (by rw [State.checkDb_drawn, State.checkDb_onCfl, h])

end OneWrite

/-- A block in service offers a doorbell write to its confluence at once (R376, R386). -/
theorem State.doorbell_of_inService (s : State) (r : DbReq) (range : Bool) (h : Safety.inService s = true)
    (he : s.cfl.dbWait = []) :
    s.doorbell r range = (s.onCfl fun c => { c with dbWait := [dbWaitOf r range] }).pumpDb := by
  obtain ⟨hm, -, hd, hp⟩ := (Safety.inService_iff s).1 h
  have avail (f : Cfl → Cfl) : (s.onCfl f).avail dCFL = true := State.avail_of_on _ _ hd hp
  have offered : (s.onCfl fun c => { c with dbWait := c.dbWait ++ [dbWaitOf r range] }) =
      s.onCfl fun c => { c with dbWait := [dbWaitOf r range] } := by simp only [State.onCfl, he, List.nil_append]
  simp [State.doorbell, State.serving_of_inService s h, hm, State.touch_of_on s _ hd hp, offered, avail]

/-- In service, with no write waiting, one that fails a check transfers and is refused. -/
theorem State.doorbell_of_error (s : State) (r : DbReq) (range : Bool) (a : RefAt) (h : Safety.inService s = true)
    (he : s.cfl.dbWait = []) (hc : s.checkDb r range = .error a) :
    s.doorbell r range =
      (((s.onCfl fun c => { c with dbWait := [dbWaitOf r range] }).transferDb (dbWaitOf r range)).refuseDb r a).onCfl
        fun c => { c with dbWait := [] } := by
  obtain ⟨hm, -, hd, hp⟩ := (Safety.inService_iff s).1 h
  rw [State.doorbell_of_inService s r range h he]
  exact State.pumpDb_of_error _ (dbWaitOf r range) a rfl rfl rfl ((s.checkDb_onCfl _ r range).trans hc)
    (State.serving_of_inService s h) hm (State.avail_of_on _ _ hd hp)

/-- In service, with no write waiting, an access of a form that R21 does not admit is discarded, counted under FORMAT
and answered FAULT with zero data; outside the confluence nothing changes. -/
theorem State.doorbell_of_dbForm (s : State) (r : DbReq) (range : Bool) (h : Safety.inService s = true)
    (he : s.cfl.dbWait = []) (hf : Safety.dbForm r range = true) :
    Safety.dbAnswered s (s.doorbell r range) r true ∧ (s.doorbell r range).cfl.window = s.cfl.window ∧
      (s.doorbell r range).cfl.refCnt.format = satInc 32 s.cfl.refCnt.format ∧
      s.doorbell r range = { s with cfl := (s.doorbell r range).cfl, free := (s.doorbell r range).free } := by
  rw [State.doorbell_of_error s r range _ h he (s.checkDb_of_dbForm r range hf),
    State.transferDb_of_offered _ (dbWaitOf r range) rfl rfl]
  obtain ⟨c, hc, hdb, hwindow, hcount⟩ := State.refuseDb_spec
    (((s.onCfl fun c => { c with dbWait := [dbWaitOf r range] }).onCfl _).drawn) r .format
  rw [hc]
  exact ⟨hdb, hwindow, congrArg RefCnt.format hcount, rfl⟩

end Sys2Proof.Machine

namespace Sys2Proof.Proofs

open Sys2Proof.Machine

/-- Settles O22: a read is a request without strobes, so each of the three accesses fails check 1 and is refused at its
transfer. -/
theorem doorbellForms : Obligations.DoorbellForms := fun r s h he =>
  ⟨⟨_, rfl, State.doorbell_of_dbForm s { r with strb := 0 } false h he (Safety.dbForm_of_no_strobes r false)⟩,
    fun hf => ⟨_, rfl, State.doorbell_of_dbForm s r false h he hf⟩,
    fun hf => ⟨_, rfl, State.doorbell_of_dbForm s r true h he hf⟩⟩

end Sys2Proof.Proofs
end

section
/-!
Proofs of the family "safety and security": DENIED of the test access port (R409, R411). Nothing outside the port writes
it: one lemma for each function of the model that gives a state says that it leaves the port, `tap`, as it was. A
function that only one other calls is unfolded with that one. From these, what each command does to DENIED.
-/

namespace Sys2Proof.Machine

/-- A fold whose steps keep an aspect of the state keeps it. -/
theorem foldl_keeps {σ α β : Type} (π : σ → β) (g : σ → α → σ) (hg : ∀ t x, π (g t x) = π t) (xs : List α) (s : σ) :
    π (xs.foldl g s) = π s := by
  induction xs generalizing s with
  | nil => rfl
  | cons x xs ih => rw [List.foldl_cons, ih, hg]

namespace State

variable (s : State)

/-! ### Branches and folds

A lemma here that holds by definition is proved `by rfl`: under `:= rfl` simp takes it for a definitional equation, with
which it does not discharge the hypothesis of a fold. -/

@[simp] theorem ite_tap (p : Prop) [Decidable p] (t : State) :
    (if p then s else t).tap = if p then s.tap else t.tap := apply_ite tap p s t

@[simp] theorem ite_fst_tap {α : Type} (p : Prop) [Decidable p] (x y : State × α) :
    (if p then x else y).1.tap = if p then x.1.tap else y.1.tap := apply_ite (fun x => x.1.tap) p x y

@[simp] theorem foldl_tap {α : Type} (g : State → α → State) (hg : ∀ t x, (g t x).tap = t.tap) (xs : List α) :
    (xs.foldl g s).tap = s.tap := foldl_keeps tap g hg xs s

@[simp] theorem foldr_tap {α : Type} (g : α → State → State) (hg : ∀ x t, (g x t).tap = t.tap) (xs : List α) :
    (xs.foldr g s).tap = s.tap := by
  rw [← List.foldl_reverse, foldl_tap _ _ fun t x => hg x t]

@[simp] theorem foldl_fst_tap {α β : Type} (g : State × β → α → State × β) (hg : ∀ a x, (g a x).1.tap = a.1.tap)
    (xs : List α) (a : State × β) : (xs.foldl g a).1.tap = a.1.tap := foldl_keeps (fun a => a.1.tap) g hg xs a

@[simp] theorem done_tap : (done s).1.tap = s.tap := by rfl
@[simp] theorem faulted_tap : (faulted s).1.tap = s.tap := by rfl

/-! ### Named operations on the state -/

@[simp] theorem onCtx_tap (c : Nat) (f : Ctx → Ctx) : (s.onCtx c f).tap = s.tap := by rfl
@[simp] theorem onGrp_tap (g : Nat) (f : Grp → Grp) : (s.onGrp g f).tap = s.tap := by rfl
@[simp] theorem onPort_tap (n : Nat) (f : Port → Port) : (s.onPort n f).tap = s.tap := by rfl
@[simp] theorem onSlc_tap (i : Nat) (f : Slc → Slc) : (s.onSlc i f).tap = s.tap := by rfl
@[simp] theorem onLane_tap (l : Nat) (f : Lane → Lane) : (s.onLane l f).tap = s.tap := by rfl
@[simp] theorem onLcnt_tap (l : Nat) (f : LaneCnt → LaneCnt) : (s.onLcnt l f).tap = s.tap := by rfl
@[simp] theorem onLport_tap (p : Nat) (f : LPort → LPort) : (s.onLport p f).tap = s.tap := by rfl
@[simp] theorem onLauthOf_tap (p : Nat) (f : LAuth → LAuth) : (s.onLauthOf p f).tap = s.tap := by rfl
@[simp] theorem onLatch_tap (n : Nat) (f : Latch → Latch) : (s.onLatch n f).tap = s.tap := by rfl
@[simp] theorem onLine_tap (n : Nat) (f : Line → Line) : (s.onLine n f).tap = s.tap := by rfl
@[simp] theorem onSlcCnt_tap (i : Nat) (f : SlcCnt → SlcCnt) : (s.onSlcCnt i f).tap = s.tap := by rfl
@[simp] theorem onDlvCnt_tap (c : Nat) (f : DlvCnt → DlvCnt) : (s.onDlvCnt c f).tap = s.tap := by rfl
@[simp] theorem drawn_tap : s.drawn.tap = s.tap := by rfl

@[simp] theorem stwRequest_tap (write : Bool) (addr : BitVec 48) (len : Nat) (data : List (BitVec 8)) :
    (s.stwRequest write addr len data).tap = s.tap := by rfl

@[simp] theorem setEntry_tap (n : Nat) (e : Entry) : (s.setEntry n e).tap = s.tap := by rfl
@[simp] theorem onEntry_tap (n : Nat) (f : Entry → Entry) : (s.onEntry n f).tap = s.tap := by rfl
@[simp] theorem setSt_tap (n : Nat) (st : SState) : (s.setSt n st).tap = s.tap := by rfl
@[simp] theorem writeEntry_tap (n : Nat) (e : Entry) : (s.writeEntry n e).tap = s.tap := by rfl
@[simp] theorem pokeEntry_tap (n : Nat) (e : Entry) : (s.pokeEntry n e).tap = s.tap := by rfl
@[simp] theorem onPla_tap (n : Nat) (f : Pla → Pla) : (s.onPla n f).tap = s.tap := by rfl
@[simp] theorem dropUpsets_tap (p : Bool → Nat → Bool) : (s.dropUpsets p).tap = s.tap := by rfl
@[simp] theorem clearUnit_tap (u : Nat) (b : UnitBase) : (s.clearUnit u b).tap = s.tap := by rfl
@[simp] theorem setBase_tap (u : Nat) (x : UnitBase) : (s.setBase u x).tap = s.tap := by rfl

@[simp] theorem traceAdd_tap (kind : Nat) (void : Bool) (ctx tag rank src : Nat) :
    (s.traceAdd kind void ctx tag rank src).tap = s.tap := by rfl

@[simp] theorem bootLog_tap (step outcome time : Nat) : (s.bootLog step outcome time).tap = s.tap := by rfl

/-! ### Wakes (R44, R374, R386) -/

@[simp] theorem eddyLatch_tap (kind d : Nat) : (s.eddyLatch kind d).tap = s.tap := by rfl
@[simp] theorem raiseReq_tap (d : Nat) : (s.raiseReq d).tap = s.tap := by rfl

@[simp] theorem startWake_tap (d : Nat) : (s.startWake d).tap = s.tap := by
  obtain ⟨_, h⟩ := startWake_spec s d
  rw [h]

@[simp] theorem wakeFor_tap (ds : List Nat) (kind : Nat) : (s.wakeFor ds kind).tap = s.tap := by
  obtain ⟨_, h⟩ := wakeFor_spec s ds kind
  rw [h]

@[simp] theorem wakeAgain_tap (ds : List Nat) : (s.wakeAgain ds).tap = s.tap := by simp [wakeAgain]

@[simp] theorem callDom_tap (d kind : Nat) : (s.callDom d kind).tap = s.tap := by
  obtain ⟨_, h⟩ := callDom_spec s d kind
  rw [h]

/-! ### Errors, reactions and self-sources (R143, R396 to R403, R426 to R431) -/

@[simp] theorem latchRaise_tap (n : Nat) (t : Tick) : (s.latchRaise n t).tap = s.tap := by
  obtain ⟨_, _, h⟩ := latchRaise_spec s n t
  rw [h]

@[simp] theorem raiseSelf_tap (n : Nat) : (s.raiseSelf n).tap = s.tap := by
  obtain ⟨_, _, _, _, h⟩ := raiseSelf_spec s n
  rw [h]

@[simp] theorem dbAnswer_tap (port : BitVec 2) (tag : BitVec 8) (fault : Bool) :
    (s.dbAnswer port tag fault).tap = s.tap := by rfl

@[simp] theorem logAt_tap (w0 : BitVec 64) (cls : Nat) (slice : Option Nat) (kind obj detail : Nat) :
    (s.logAt w0 cls slice kind obj detail).tap = s.tap := by
  simp [logAt, clsCount]

@[simp] theorem logErr_tap (cls : Nat) (i : Option Nat)
    (kind obj detail : Nat) : (s.logErr cls i kind obj detail).tap = s.tap := by
  obtain ⟨_, h, _⟩ := logErr_spec s cls i kind obj detail
  rw [h]

@[simp] theorem fail_tap (cls : Nat) (i : Option Nat)
    (kind obj detail : Nat) : (s.fail cls i kind obj detail).tap = s.tap := by
  obtain ⟨_, _, _, _, _, _, _, _, h, _⟩ := fail_spec s cls i kind obj detail
  rw [h]

@[simp] theorem note_tap (cls self : Nat) (i : Option Nat)
    (kind obj detail : Nat) : (s.note cls self i kind obj detail).tap = s.tap := by
  obtain ⟨_, _, _, _, _, h, _⟩ := note_spec s cls self i kind obj detail
  rw [h]

@[simp] theorem failSrc_tap (cls n detail : Nat) : (s.failSrc cls n detail).tap = s.tap := by simp [failSrc]
@[simp] theorem failCtx_tap (cls c detail : Nat) : (s.failCtx cls c detail).tap = s.tap := by simp [failCtx]
@[simp] theorem failPort_tap (cls p l detail : Nat) : (s.failPort cls p l detail).tap = s.tap := by simp [failPort]
@[simp] theorem linkState_tap (p what reason : Nat) : (s.linkState p what reason).tap = s.tap := by simp [linkState]

@[simp] theorem powerEvent_tap (isLevel : Bool) (obj what code : Nat) :
    (s.powerEvent isLevel obj what code).tap = s.tap := by
  simp [powerEvent]

@[simp] theorem unlessFatal_tap (f : State → State) (hf : ∀ t, (f t).tap = t.tap) : (s.unlessFatal f).tap = s.tap := by
  simp [unlessFatal, hf]

@[simp] theorem late_tap : s.late.tap = s.tap := by rfl

/-! ### Sending on the links (R335 to R341, R346, R362 to R364) -/

@[simp] theorem closeBatch_tap (p : Nat) : (s.closeBatch p).tap = s.tap := by
  obtain ⟨_, h⟩ := closeBatch_spec s p
  rw [h]

@[simp] theorem tokened_tap (p : Nat) (f : Frame) : (s.tokened p f).1.tap = s.tap := by
  simp only [tokened]
  split <;> simp

@[simp] theorem transmit_tap (p : Nat) (f : Frame) : (s.transmit p f).tap = s.tap := by
  obtain ⟨_, _, h⟩ := transmit_spec s p f
  rw [h]

@[simp] theorem sendOn_tap (p : Nat) (f : Frame) : (s.sendOn p f).tap = s.tap := by
  obtain ⟨_, _, _, h⟩ := sendOn_spec s p f
  rw [h]

@[simp] theorem drainPort_tap (p : Nat) : (s.drainPort p).tap = s.tap := by simp [drainPort]

@[simp] theorem flood_tap (except : Option Nat) (f : Frame) : (s.flood except f).tap = s.tap := by
  obtain ⟨_, _, _, h⟩ := flood_spec s except f
  rw [h]

@[simp] theorem sendTo_tap (dst : Nat) (f : Frame) : (s.sendTo dst f).tap = s.tap := by
  obtain ⟨_, _, _, h⟩ := sendTo_spec s dst f
  rw [h]

@[simp] theorem onE2e_tap (d : Nat) (f : E2e → E2e) : (s.onE2e d f).tap = s.tap := by rfl

@[simp] theorem sendE2e_tap (d : Nat) (urgent : Bool) (b : FrameBody) : (s.sendE2e d urgent b).tap = s.tap := by
  obtain ⟨_, _, _, _, h⟩ := sendE2e_spec s d urgent b
  rw [h]

@[simp] theorem alarmBatch_tap (p : Nat) (f : Frame) : (s.alarmBatch p f).tap = s.tap := by simp [alarmBatch]

@[simp] theorem alarmOn_tap (p : Nat) (stamp : BitVec 64) (org line : Nat) :
    (s.alarmOn p stamp org line).tap = s.tap := by
  simp only [alarmOn]
  split <;> simp

@[simp] theorem alarmOut_tap (except : Option Nat) (stamp : BitVec 64) (org line : Nat) :
    (s.alarmOut except stamp org line).tap = s.tap := by
  simp [alarmOut]

@[simp] theorem alarmOriginate_tap (stamp : BitVec 64) (line : Nat) : (s.alarmOriginate stamp line).tap = s.tap := by
  simp [alarmOriginate]

/-! ### Blocks of a lane (R297, R302 to R306) -/

@[simp] theorem deskew_tap (p k : Nat) : (s.deskew p k).tap = s.tap := by
  induction k generalizing s with
  | zero => rfl
  | succ k ih => simp [deskew, ih]

@[simp] theorem rxItem_tap (l : Nat) (i : RxItem) : (s.rxItem l i).tap = s.tap := by simp [rxItem]
@[simp] theorem rxBlock_tap (l : Nat) (raw : BitVec 130) : (s.rxBlock l raw).tap = s.tap := by simp [rxBlock, lineIn]

/-! ### The arrays and the errors that stand in them (R160 to R179) -/

@[simp] theorem onStripe_tap (pla : Bool) (f : Stripe → Stripe) : (s.onStripe pla f).tap = s.tap := by rfl

@[simp] theorem bankFail_tap (pla : Bool) (bank row why : Nat) : (s.bankFail pla bank row why).tap = s.tap := by
  simp only [bankFail]
  split
  · rfl
  · split <;> simp

@[simp] theorem wordRead_tap (pla : Bool) (bank row : Nat) (w : WordState) :
    (s.wordRead pla bank row w).1.tap = s.tap := by
  simp only [wordRead]
  split <;> simp [ceWord, ueWord]

@[simp] theorem setQueue_tap (o p : Nat) (q : List Nat) : (s.setQueue o p q).tap = s.tap := by rfl
@[simp] theorem onLinkOf_tap (n : Nat) (f : Link → Link) : (s.onLinkOf n f).tap = s.tap := by rfl

@[simp] theorem headRead_tap (o p : Nat) (w : HeadWord) : (s.headRead o p w).1.tap = s.tap := by
  simp only [headRead]
  repeat' split
  all_goals simp

@[simp] theorem linkRead_tap (n : Nat) (lost : Bool) (due : Tick) : (s.linkRead n lost due).tap = s.tap := by
  simp [linkRead]

@[simp] theorem findUpset_tap (a : State × Bool) (u : Upset) : (findUpset a u).1.tap = a.1.tap := by
  simp only [findUpset]
  split <;> simp

@[simp] theorem finds_tap (p : Upset → Bool) : (s.finds p).1.tap = s.tap := by simp [finds]

@[simp] theorem usingWords_tap (p : Upset → Bool) (f : State → State) (hf : ∀ t, (f t).tap = t.tap) :
    (s.usingWords p f).tap = s.tap := by
  simp [usingWords, hf]

/-! ### Queues, the wheel and the transition table (R149, R175 to R179) -/

@[simp] theorem setSovBit_tap (o n : Nat) (b : Bool) : (s.setSovBit o n b).tap = s.tap := by rfl
@[simp] theorem setLink_tap (n : Nat) (linked : Bool) (next : Nat) : (s.setLink n linked next).tap = s.tap := by rfl
@[simp] theorem setNext_tap (n next : Nat) : (s.setNext n next).tap = s.tap := by rfl
@[simp] theorem setFwd_tap (n : Nat) (f : Option Fwd) : (s.setFwd n f).tap = s.tap := by rfl
@[simp] theorem onProxy_tap (n : Nat) (f : Proxy → Proxy) : (s.onProxy n f).tap = s.tap := by rfl
@[simp] theorem openProxy_tap (n : Nat) : (s.openProxy n).tap = s.tap := by simp [openProxy]

@[simp] theorem tailLink_tap (n : Nat) : (s.tailLink n).tap = s.tap := by
  simp only [tailLink]
  repeat' split
  all_goals simp

@[simp] theorem headLink_tap (n : Nat) : (s.headLink n).tap = s.tap := by
  simp only [headLink]
  split <;> simp

@[simp] theorem unlink_tap (n : Nat) : (s.unlink n).tap = s.tap := by
  simp only [unlink]
  repeat' split
  all_goals simp

@[simp] theorem wheelPut_tap (k n : Nat) : (s.wheelPut k n).tap = s.tap := by rfl
@[simp] theorem armed_tap (n d : Nat) : (s.arm n d).tap = s.tap := by simp [arm]
@[simp] theorem armPromotion_tap (n : Nat) : (s.armPromotion n).tap = s.tap := by simp [armPromotion]
@[simp] theorem writeStamp_tap (n : Nat) (t : BitVec 32) : (s.writeStamp n t).tap = s.tap := by simp [writeStamp]

@[simp] theorem countMerged_tap (n : Nat) : (s.countMerged n).tap = s.tap := by
  simp only [countMerged]
  split <;> simp

@[simp] theorem countWdrawn_tap (n : Nat) : (s.countWdrawn n).tap = s.tap := by
  simp only [countWdrawn]
  split <;> simp

@[simp] theorem pushDown_tap (n : Nat) (first : Bool) (m : DMsg) : (s.pushDown n first m).tap = s.tap := by
  simp [pushDown]

@[simp] theorem sendRevoke_tap (c : Nat) (p : Pres) (first : Bool) : (s.sendRevoke c p first).tap = s.tap := by
  simp [sendRevoke]

@[simp] theorem onPres_tap (c : Nat) (f : Pres → Pres) : (s.onPres c f).tap = s.tap := by rfl
@[simp] theorem endPres_tap (c : Nat) : (s.endPres c).tap = s.tap := by rfl

@[simp] theorem withdraw_tap (c : Nat) (revoke : Bool) : (s.withdraw c revoke).tap = s.tap := by
  simp only [withdraw]
  split
  · rfl
  · split <;> simp

@[simp] theorem withdrawSrc_tap (n : Nat) (revoke : Bool) : (s.withdrawSrc n revoke).tap = s.tap := by
  simp only [withdrawSrc]
  split <;> simp

@[simp] theorem freeProxy_tap (n : Nat) : (s.freeProxy n).tap = s.tap := by simp [freeProxy]

@[simp] theorem endProxy_tap (n op : Nat) (st : SState) (firing : Bool) : (s.endProxy n op st firing).tap = s.tap := by
  simp [endProxy]

@[simp] theorem settle_tap (n : Nat) : (s.settle n).tap = s.tap := by
  simp only [settle]
  split
  · split <;> simp
  · rfl

@[simp] theorem holdFwd_tap (n : Nat) (f : Fwd) (t : Tick) : (s.holdFwd n f t).tap = s.tap := by
  simp only [holdFwd]
  split <;> simp

@[simp] theorem passToProxy_tap (n : Nat) (t : Tick) (k : FKind) : (s.passToProxy n t k).tap = s.tap := by
  simp only [passToProxy]
  split <;> simp

@[simp] theorem onSource_tap (n : Nat) (f : State → State) (hf : ∀ t, (f t).tap = t.tap) :
    (s.onSource n f).tap = s.tap := by
  simp [onSource, fixReserved, hf]

@[simp] theorem becomePending_tap (n : Nat) (t : BitVec 32) : (s.becomePending n t).tap = s.tap := by
  simp [becomePending]

@[simp] theorem fireRow_tap (n : Nat) (t : Tick) : (s.fireRow n t).tap = s.tap := by
  simp only [fireRow]
  split <;> simp [fireCompleting]

@[simp] theorem assertRow_tap (n : Nat) (t : Tick) : (s.assertRow n t).tap = s.tap := by
  simp only [assertRow]
  split <;> simp

@[simp] theorem deassertRow_tap (n : Nat) (t : Tick) : (s.deassertRow n t).tap = s.tap := by
  simp only [deassertRow]
  split <;> simp

@[simp] theorem resolveRow_tap (n : Nat) (t : Tick) (k : FKind) : (s.resolveRow n t k).tap = s.tap := by
  simp only [resolveRow]
  split
  · rfl
  · split <;> simp

@[simp] theorem returnRow_tap (n c rank : Nat) : (s.returnRow n c rank).tap = s.tap := by simp [returnRow]

@[simp] theorem maskRow_tap (n : Nat) (revoke : Bool) : (s.maskRow n revoke).tap = s.tap := by
  simp only [maskRow]
  split <;> simp

@[simp] theorem enableLine_tap (n : Nat) : (s.enableLine n).tap = s.tap := by simp [enableLine]
@[simp] theorem exitRow_tap (n : Nat) (held : Bool) : (s.exitRow n held).tap = s.tap := by simp [exitRow]
@[simp] theorem exitsOf_tap (p : Nat → Bool) : (s.exitsOf p).tap = s.tap := by simp [exitsOf]

@[simp] theorem commitForwarded_tap (n : Nat) (e' : Entry) : (s.commitForwarded n e').tap = s.tap := by
  simp only [commitForwarded]
  split <;> simp

@[simp] theorem commitEntry_tap (n : Nat) (e' : Entry) : (s.commitEntry n e').tap = s.tap := by
  simp [commitEntry, mask, unmask]

/-! ### Visits of the timing wheel (R188 to R195) -/

@[simp] theorem exitsDue_tap : s.exitsDue.tap = s.tap := by simp [exitsDue]

@[simp] theorem promote_tap (n : Nat) : (s.promote n).tap = s.tap := by
  simp only [promote]
  split <;> simp

@[simp] theorem miss_tap (n : Nat) : (s.miss n).tap = s.tap := by
  simp only [miss]
  split <;> simp

@[simp] theorem visitSlot_tap (k b : Nat) : (s.visitSlot k b).tap = s.tap := by simp [visitSlot, visit, lateBy]

@[simp] theorem catchUp_tap : s.catchUp.tap = s.tap := by
  simp only [catchUp]
  split <;> simp

/-! ### Domains that work needs (R377, R381, R386) -/

@[simp] theorem endDoze_tap (d : Nat) : (s.endDoze d).tap = s.tap := by simp [endDoze]
@[simp] theorem gate_tap (d : Nat) : (s.gate d).tap = s.tap := by simp [gate]
@[simp] theorem touch_tap (ds : List Nat) : (s.touch ds).tap = s.tap := by simp [touch]
@[simp] theorem need_tap (ds : List Nat) (kind : Nat) : (s.need ds kind).tap = s.tap := by simp [need]

@[simp] theorem withDomains_tap (ds : List Nat) (kind : Nat) (work : State → State)
    (hwork : ∀ t, (work t).tap = t.tap) : (s.withDomains ds kind work).tap = s.tap := by
  simp [withDomains, hwork]

/-! ### Doorbells, window, admission and resolution (R21 to R25, R122 to R143, R284 to R286) -/

@[simp] theorem readMap_tap (n : Nat) : (s.readMap n).tap = s.tap := by simp [readMap]
@[simp] theorem peakUp_tap : s.peakUp.tap = s.tap := by rfl
@[simp] theorem spillUp_tap (i : Nat) : (s.spillUp i).tap = s.tap := by simp [spillUp]
@[simp] theorem sliceReady_tap (i : Nat) : (s.sliceReady i).tap = s.tap := by simp [sliceReady]

theorem enterWindow_tap {s t : State} {keep n slice : Nat} {stamp : Tick} {express : Bool} {origin : Nat} {k : FKind}
    (h : s.enterWindow keep n slice stamp express origin k = some t) : t.tap = s.tap := by
  simp only [enterWindow] at h
  split at h
  · cases h
  · obtain rfl := Option.some.inj h
    simp

@[simp] theorem refuseDb_tap (r : DbReq) (a : RefAt) : (s.refuseDb r a).tap = s.tap := by
  simp only [refuseDb]
  split <;> simp

@[simp] theorem notReadyDb_tap (r : DbReq) : (s.notReadyDb r).tap = s.tap := by simp [notReadyDb]
@[simp] theorem dropDb_tap : s.dropDb.tap = s.tap := by simp [dropDb]

@[simp] theorem expand_tap (w : DbWait) (keep k : Nat) : (s.expand w keep k).1.tap = s.tap := by
  induction k generalizing s w with
  | zero => rfl
  | succ k ih =>
    simp only [expand]
    split
    · split
      · next h => rw [ih, enterWindow_tap h]
      · rfl
    · rfl

@[simp] theorem takeEntries_tap (w : DbWait) (keep : Nat) : (s.takeEntries w keep).1.tap = s.tap := by
  simp only [takeEntries]
  split
  · split <;> simp
  · split
    · next h => simp [enterWindow_tap h]
    · rfl

@[simp] theorem loseMap_tap (n : Nat) : (s.loseMap n).tap = s.tap := by rfl
@[simp] theorem begins_tap (w : DbWait) : (s.begins w).tap = s.tap := by simp [begins]

@[simp] theorem runDb_tap (w : DbWait) (keep : Nat) : (s.runDb w keep).1.tap = s.tap := by
  simp only [runDb]
  split
  · simp
  · split <;> simp

@[simp] theorem transferDb_tap (w : DbWait) : (s.transferDb w).tap = s.tap := by rfl

@[simp] theorem edgeDb_tap : s.edgeDb.tap = s.tap := by
  refine foldl_tap _ _ (fun t p => ?_) _
  split
  · split <;> simp
  · rfl

@[simp] theorem takeDb_tap : s.takeDb.tap = s.tap := by simp [takeDb, takeOne]

@[simp] theorem pumpRounds_tap (k : Nat) (s : State) : (pumpRounds k s).tap = s.tap := by
  induction k generalizing s with
  | zero => rfl
  | succ k ih => simp [pumpRounds, ih]

@[simp] theorem pumpDb_tap : s.pumpDb.tap = s.tap := by simp [pumpDb]
@[simp] theorem doorbell_tap (r : DbReq) (range : Bool) : (s.doorbell r range).tap = s.tap := by simp [doorbell]

theorem grant4_tap {s : State} {l : List Nat} {r : Nat × State} (h : s.grant4 l = some r) : r.2.tap = s.tap := by
  simp only [grant4] at h
  split at h
  · cases h
    rfl
  · obtain ⟨i, -, rfl⟩ := Option.map_eq_some_iff.1 h
    rfl

@[simp] theorem passIn_tap (k : Ready) : (s.passIn k).tap = s.tap := by
  simp only [passIn]
  split <;> simp [passHead, passEntry, spillDown]

theorem pickReady_tap {s : State} {c4First : Bool} {r : Ready × Bool × State}
    (h : s.pickReady c4First = some r) : r.2.2.tap = s.tap := by
  have four : ∀ r ∈ (s.grant4 s.c4Slices).bind fun g => (s.c4Head g.1).map fun w => (Ready.ent w, true, g.2),
      r.2.2.tap = s.tap := by
    intro r hr
    obtain ⟨g, hg, hr⟩ := Option.bind_eq_some_iff.1 hr
    obtain ⟨w, -, rfl⟩ := Option.map_eq_some_iff.1 hr
    exact grant4_tap hg
  have firsts : ∀ r ∈ (s.class1 ++ s.class2 ++ s.class3).head?.map fun r => (r, false, s), r.2.2.tap = s.tap := by
    intro r hr
    obtain ⟨x, -, rfl⟩ := Option.map_eq_some_iff.1 hr
    rfl
  simp only [pickReady, Option.orElse_eq_or] at h
  split at h
  · rcases Option.or_eq_some_iff.1 h with h | ⟨-, h⟩
    · exact four r h
    · exact firsts r h
  · rcases Option.or_eq_some_iff.1 h with h | ⟨-, h⟩
    · exact firsts r h
    · exact four r h

@[simp] theorem cycle_tap (c4First : Bool) (banks : List Nat) (took4 : Bool) (k : Nat) :
    (s.cycle c4First banks took4 k).1.tap = s.tap := by
  induction k generalizing s banks took4 with
  | zero => rfl
  | succ k ih =>
    simp only [cycle]
    split
    · rfl
    · next h =>
      split
      · rfl
      · rw [ih, passIn_tap]
        exact pickReady_tap h

@[simp] theorem admission_tap : s.admission.tap = s.tap := by simp [admission]

@[simp] theorem arrayRead_tap (n : Nat) (a : Access) (due : Tick) : (s.arrayRead n a due).1.tap = s.tap := by
  simp [arrayRead]

@[simp] theorem resolveNext_tap (a : Access) : (s.resolveNext a).tap = s.tap := by
  simp only [resolveNext]
  split <;> simp

/-! ### The pass of the Weir (R180 to R220) -/

@[simp] theorem present_tap (c : Nat) (x : Cand) : (s.present c x).tap = s.tap := by
  simp only [present]
  repeat' split
  all_goals simp

@[simp] theorem requestRevoke_tap (c : Nat) : (s.requestRevoke c).tap = s.tap := by
  simp only [requestRevoke]
  split
  · rfl
  · split <;> simp

@[simp] theorem handOff_tap (g i : Nat) (m : BitVec 13) (x : Cand) : (s.handOff g i m x).tap = s.tap := by
  simp [handOff]

@[simp] theorem router_tap : s.router.1.tap = s.tap := by
  refine foldl_fst_tap _ (fun a gx => ?_) _ _
  obtain ⟨t, offers, granted⟩ := a
  simp only
  split
  · rfl
  · split <;> simp

@[simp] theorem offerTo_tap (a : State × List (Nat × Cand)) (offers : List (Nat × Cand)) (c : Nat) :
    (offerTo a offers c).1.tap = a.1.tap := by
  simp only [offerTo]
  repeat' split
  all_goals simp

@[simp] theorem presentOn_tap (l : List (Nat × Cand)) (n : Nat) : (s.presentOn l n).tap = s.tap := by
  simp only [presentOn]
  split <;> simp [worldFail]

@[simp] theorem pass_tap : s.pass.tap = s.tap := by simp [pass, grpEmptyStep]
@[simp] theorem noteInputs_tap : s.noteInputs.tap = s.tap := by rfl

@[simp] theorem compared_tap (c : Compare) (missed : Tick) (f : State → State) (hf : ∀ t, (f t).tap = t.tap) :
    (s.compared c missed f).tap = s.tap := by
  simp only [compared]
  repeat' split
  all_goals simp [hf]

@[simp] theorem noteAvail_tap : s.noteAvail.tap = s.tap := by simp [noteAvail]
@[simp] theorem comparedPass_tap (c : Compare) : (s.comparedPass c).tap = s.tap := by simp [comparedPass]
@[simp] theorem ownPass_tap (c : Compare) : (s.ownPass c).tap = s.tap := by simp [ownPass]

/-! ### The sluices and the completion log (R30 to R37, R171 to R174, R221 to R250) -/

@[simp] theorem memReady_tap (i : Nat) : (s.memReady i).tap = s.tap := by simp [memReady]

@[simp] theorem logCompletion_tap (n c : Nat) (stamp : BitVec 32) : (s.logCompletion n c stamp).tap = s.tap := by
  simp only [logCompletion]
  split <;> simp

theorem grantMem_tap {s : State} {r : Nat × State} (h : s.grantMem = some r) : r.2.tap = s.tap := by
  obtain ⟨g, hg, rfl⟩ := Option.map_eq_some_iff.1 h
  rw [onSlc_tap]
  split at hg
  · cases hg
    rfl
  · split at hg
    · cases hg
      rfl
    · obtain ⟨i, -, rfl⟩ := Option.map_eq_some_iff.1 hg
      rfl

@[simp] theorem moveXfer_tap (i : Nat) : (s.moveXfer i).tap = s.tap := by rfl
@[simp] theorem writeLog_tap (i : Nat) : (s.writeLog i).tap = s.tap := by rfl

theorem memStep_tap {s : State} {r : Nat × State} (h : s.memStep = some r) : r.2.tap = s.tap := by
  simp only [memStep] at h
  split at h
  · cases h
  · obtain ⟨g, hg, rfl⟩ := Option.map_eq_some_iff.1 h
    simp [grantMem_tap hg]

@[simp] theorem untilLog_tap (k : Nat) (s : State) : (untilLog k s).tap = s.tap := by
  induction k generalizing s with
  | zero => rfl
  | succ k ih =>
    simp only [untilLog]
    split
    · rfl
    · split
      · next h => exact (ih _).trans (memStep_tap h)
      · rfl

@[simp] theorem untilMoved_tap (i total k : Nat) (s : State) : (untilMoved i total k s).tap = s.tap := by
  induction k generalizing s with
  | zero => rfl
  | succ k ih =>
    simp only [untilMoved]
    split
    · rfl
    · split
      · next h => exact (ih _).trans (memStep_tap h)
      · rfl

@[simp] theorem finishXfer_tap (i total : Nat) : (s.finishXfer i total).tap = s.tap := by simp [finishXfer]
@[simp] theorem failXfer_tap (i : Nat) : (s.failXfer i).tap = s.tap := by simp [failXfer]
@[simp] theorem forgetLogs_tap (i : Nat) : (s.forgetLogs i).tap = s.tap := by rfl

@[simp] theorem logResponse_tap (r : MemEnd) : (s.logResponse r).tap = s.tap := by
  simp only [logResponse]
  split <;> simp

@[simp] theorem logSwitch_tap (i : Nat) : (s.logSwitch i).tap = s.tap := by
  simp only [logSwitch]
  split <;> simp

@[simp] theorem rrToMember_tap (g : Option Nat) (c : Nat) : (s.rrToMember g c).tap = s.tap := by
  simp only [rrToMember]
  split <;> simp

@[simp] theorem popDown_tap (n : Nat) (m : DMsg) : (s.popDown n m).tap = s.tap := by rfl

@[simp] theorem presentTransfers_tap (n : Nat) : (s.presentTransfers n).tap = s.tap := by
  simp only [presentTransfers]
  repeat' split
  all_goals simp

@[simp] theorem revokeTransfers_tap (n : Nat) : (s.revokeTransfers n).tap = s.tap := by
  simp only [revokeTransfers]
  split <;> simp

@[simp] theorem stall_tap (n : Nat) : (s.stall n).tap = s.tap := by
  simp only [stall]
  split <;> simp

@[simp] theorem upDiscard_tap (u : UpMsg) (op : Nat) (f : UpFate) : (s.upDiscard u op f).tap = s.tap := by
  simp only [upDiscard]
  repeat' split
  all_goals simp

@[simp] theorem badAnswer_tap (c tag : Nat) : (s.badAnswer c tag).tap = s.tap := by simp [badAnswer]

@[simp] theorem pushStk_tap (c : Nat) (e : Stk) : (s.pushStk c e).tap = s.tap := by
  simp only [pushStk]
  split <;> simp

@[simp] theorem takeSrc_tap (n : Nat) : (s.takeSrc n).tap = s.tap := by simp [takeSrc]

@[simp] theorem takeRow_tap (c tag : Nat) : (s.takeRow c tag).tap = s.tap := by
  simp only [takeRow]
  repeat' split
  all_goals simp

@[simp] theorem declineRow_tap (c tag : Nat) : (s.declineRow c tag).tap = s.tap := by
  simp only [declineRow]
  repeat' split
  all_goals simp

@[simp] theorem completeRow_tap (c tag : Nat) : (s.completeRow c tag).tap = s.tap := by
  simp only [completeRow]
  split <;> simp [completeIgnored, completeSrc]

@[simp] theorem upRow_tap (op c tag : Nat) : (s.upRow op c tag).tap = s.tap := by
  simp only [upRow]
  split <;> simp

@[simp] theorem upRead_tap (e : UpEnt) : (s.upRead e).1.tap = s.tap := by
  simp only [upRead]
  split <;> simp

@[simp] theorem applyUp_tap (e : UpEnt) : (s.applyUp e).tap = s.tap := by
  simp only [applyUp]
  split <;> simp

@[simp] theorem acceptUp_tap (n : Nat) : (s.acceptUp n).tap = s.tap := by
  simp only [acceptUp]
  split <;> simp

@[simp] theorem drainUp_tap (n : Nat) : (s.drainUp n).tap = s.tap := by simp [drainUp]

@[simp] theorem upEnters_tap (n : Nat) (e : UpEnt) : (s.upEnters n e).tap = s.tap := by
  simp only [upEnters]
  split <;> simp

@[simp] theorem upstream_tap (u : UpMsg) (op : Nat) : (s.upstream u op).tap = s.tap := by
  simp only [upstream]
  split <;> simp

@[simp] theorem drainUps_tap : s.drainUps.tap = s.tap := by simp [drainUps]

@[simp] theorem holdExpires_tap (c : Nat) : (s.holdExpires c).tap = s.tap := by
  simp only [holdExpires]
  split <;> simp

@[simp] theorem maskExpires_tap (n : Nat) : (s.maskExpires n).tap = s.tap := by simp [maskExpires]

@[simp] theorem presTimeout_tap (c : Nat) : (s.presTimeout c).tap = s.tap := by
  simp only [presTimeout]
  split <;> simp

@[simp] theorem retireTag_tap (n tag ptmo : Nat) : (s.retireTag n tag ptmo).tap = s.tap := by rfl

@[simp] theorem presRetire_tap (c : Nat) : (s.presRetire c).tap = s.tap := by
  simp only [presRetire]
  split <;> simp

@[simp] theorem freeRetired_tap (n tag : Nat) : (s.freeRetired n tag).tap = s.tap := by rfl
@[simp] theorem releaseSrc_tap (n : Nat) : (s.releaseSrc n).tap = s.tap := onSource_tap s n _ fun t => by split <;> simp
@[simp] theorem abandonSrc_tap (n c : Nat) : (s.abandonSrc n c).tap = s.tap := by simp [abandonSrc]

@[simp] theorem resetCtx_tap (c : Nat) : (s.resetCtx c).tap = s.tap := by
  simp only [resetCtx]
  split
  · rfl
  · split <;> simp

@[simp] theorem resetPort_tap (n : Nat) : (s.resetPort n).tap = s.tap := by simp [resetPort]

/-! ### Slices (R271 to R295) -/

@[simp] theorem setSlcState_tap (i : Nat) (st : SlcState) : (s.setSlcState i st).tap = s.tap := by rfl
@[simp] theorem purgedAdd_tap (i k : Nat) : (s.purgedAdd i k).tap = s.tap := by rfl

@[simp] theorem purgePres_tap (i c : Nat) (p : Pres) : (s.purgePres i c p).tap = s.tap := by
  simp only [purgePres]
  repeat' split
  all_goals simp

@[simp] theorem purge3_tap (i : Nat) : (s.purge3 i).tap = s.tap := by
  refine foldl_tap _ _ (fun t q => ?_) _
  split
  · split <;> simp
  · rfl

@[simp] theorem purge4_tap (i : Nat) : (s.purge4 i).tap = s.tap := by simp [purge4]
@[simp] theorem purge5_tap (i : Nat) : (s.purge5 i).tap = s.tap := by simp [purge5]

@[simp] theorem purgeProxies_tap (i : Nat) : (s.purgeProxies i).tap = s.tap := by
  refine foldl_tap _ _ (fun t p => ?_) _
  split
  · split <;> simp
  · rfl

@[simp] theorem purge6_tap (i : Nat) : (s.purge6 i).tap = s.tap := by
  refine (foldl_tap _ _ (fun u k => ?_) _).trans ?_
  · dsimp only
    split <;> simp
  · refine (foldl_tap _ _ (fun u p => ?_) _).trans ?_
    · split <;> simp
    · simp

@[simp] theorem purgeBegin_tap (i : Nat) : (s.purgeBegin i).tap = s.tap := by
  simp [purgeBegin, purge1, purgeFrames, purge2]

@[simp] theorem purgeEnd_tap (i : Nat) : (s.purgeEnd i).tap = s.tap := by simp [purgeEnd, purge7]

@[simp] theorem restoreApply_tap (i : Nat) (m : SaveImage) : (s.restoreApply i m).tap = s.tap := by
  simp [restoreApply, restoreSrc, restoreCtx, restoreGrp]

@[simp] theorem restoreFinish_tap (i : Nat) (r : MemEnd) (m : SaveImage) : (s.restoreFinish i r m).tap = s.tap := by
  simp [restoreFinish]

@[simp] theorem cmdApply_tap (i cmd : Nat) : (s.cmdApply i cmd).tap = s.tap := by
  simp only [cmdApply]
  split <;> simp [drainPres]

@[simp] theorem slcCmd_tap (i : Nat) (mgr : Bool) (cmd : Nat) : (s.slcCmd i mgr cmd).1.tap = s.tap := by simp [slcCmd]
@[simp] theorem drainEnd_tap (i : Nat) : (s.drainEnd i).tap = s.tap := by simp [drainEnd]
@[simp] theorem forcedEnd_tap (i : Nat) : (s.forcedEnd i).tap = s.tap := by simp [forcedEnd]
@[simp] theorem saveFinish_tap (i : Nat) (m : MemEnd) : (s.saveFinish i m).tap = s.tap := by simp [saveFinish]
@[simp] theorem shareCommit_tap (i : Nat) : (s.shareCommit i).tap = s.tap := by rfl
@[simp] theorem creditEpoch_tap : s.creditEpoch.tap = s.tap := by rfl

/-! ### Key slots and their commits (R412 to R425) -/

@[simp] theorem onSlot_tap (n : Nat) (f : Slot → Slot) : (s.onSlot n f).tap = s.tap := by rfl
@[simp] theorem setCopy_tap (b : Bool) (n : Nat) (c : KeyCopy) : (s.setCopy b n c).tap = s.tap := by rfl

@[simp] theorem restoreSlot_tap (n : Nat) : (s.restoreSlot n).tap = s.tap := by
  simp only [restoreSlot]
  split <;> simp only [onSlot_tap, ite_tap, fail_tap, ite_self]

@[simp] theorem restoreRoots_tap : s.restoreRoots.tap = s.tap := by
  simp only [restoreRoots]
  split <;> simp

@[simp] theorem formKeys_tap : s.formKeys.tap = s.tap := by simp [formKeys]
@[simp] theorem keyAnswer_tap (ok : Bool) : (s.keyAnswer ok).tap = s.tap := by rfl

@[simp] theorem beginCommit_tap (n : Nat) (c : KeyCopy) (live : Nat → Option Slot) :
    (s.beginCommit n c live).tap = s.tap := by
  simp [beginCommit]

@[simp] theorem tearCommit_tap : s.tearCommit.tap = s.tap := by
  simp only [tearCommit]
  split <;> simp

@[simp] theorem finishCommit_tap : s.finishCommit.tap = s.tap := by
  simp only [finishCommit]
  split
  · split <;> simp
  · rfl

@[simp] theorem loadSlot_tap (n : Nat) (beats : List (BitVec 64)) : (s.loadSlot n beats).tap = s.tap := by
  simp only [loadSlot]
  repeat' split
  all_goals simp

@[simp] theorem invalidateSlot_tap (n : Nat) : (s.invalidateSlot n).tap = s.tap := by
  simp only [invalidateSlot, beginCommit_tap, onSlot_tap]

/-! ### Images and epochs (R79 to R112) -/

@[simp] theorem stageRefuse_tap (code : Nat) : (s.stageRefuse code).tap = s.tap := by rfl
@[simp] theorem fetchStaged_tap : s.fetchStaged.tap = s.tap := by simp [fetchStaged]

@[simp] theorem stageBegin_tap : s.stageBegin.tap = s.tap := by
  simp only [stageBegin]
  split <;> simp

@[simp] theorem stageEnd_tap (r : MemEnd) (m : Image) : (s.stageEnd r m).tap = s.tap := by simp [stageEnd]

@[simp] theorem emptyUnit_tap (u : Nat) : (s.emptyUnit u).tap = s.tap := by
  refine (foldl_tap _ _ (fun t p => ?_) _).trans ?_
  · split <;> simp
  · simp

@[simp] theorem clearMoved_tap (b : ImageBody) (us : List Nat) : (s.clearMoved b us).tap = s.tap := by simp [clearMoved]

@[simp] theorem stageCommit_tap : s.stageCommit.tap = s.tap := by
  simp only [stageCommit]
  split <;> simp

@[simp] theorem disown_tap : s.disown.tap = s.tap := by simp [disown]
@[simp] theorem stageDiscard_tap : s.stageDiscard.tap = s.tap := by simp [stageDiscard]
@[simp] theorem epochCtl_tap (v : BitVec 64) : (s.epochCtl v).tap = s.tap := by simp [epochCtl]
@[simp] theorem loadEntries_tap (b : ImageBody) : (s.loadEntries b).tap = s.tap := by simp [loadEntries]
@[simp] theorem loadReactions_tap (b : ImageBody) : (s.loadReactions b).tap = s.tap := by rfl
@[simp] theorem loadTimer_tap (b : ImageBody) : (s.loadTimer b).tap = s.tap := by rfl

@[simp] theorem loadStructure_tap (b : ImageBody) : (s.loadStructure b).tap = s.tap := by
  simp [loadStructure, loadUnits]

@[simp] theorem loadSafe_tap (b : ImageBody) : (s.loadSafe b).tap = s.tap := by simp [loadSafe]

@[simp] theorem epoch_tap : s.epoch.tap = s.tap := by
  simp only [epoch]
  split <;> simp [applyEpoch, clearRest]

/-! ### The upstream port of time (R258, R264) -/

@[simp] theorem unaligned_tap : s.unaligned.tap = s.tap := by simp [unaligned]
@[simp] theorem tbFree_tap : s.tbFree.tap = s.tap := by simp [tbFree]
@[simp] theorem onMark_tap (p : Nat) (f : MarkPort → MarkPort) : (s.onMark p f).tap = s.tap := by rfl
@[simp] theorem follow_tap (p : Nat) : (s.follow p).tap = s.tap := by rfl

@[simp] theorem upLost_tap : s.upLost.tap = s.tap := by
  simp only [upLost]
  split
  · rfl
  · split <;> simp

/-! ### The cascade (R331 to R366) -/

@[simp] theorem resendKept_tap : s.resendKept.tap = s.tap := by simp [resendKept]
@[simp] theorem topoOn_tap (p op : Nat) (m : TopoMsg) : (s.topoOn p op m).tap = s.tap := by simp [topoOn]
@[simp] theorem sendReport_tap : s.sendReport.tap = s.tap := by simp [sendReport]

@[simp] theorem sendHeld_tap (d : Nat) : (s.sendHeld d).tap = s.tap := by
  refine foldl_tap _ _ (fun t q => ?_) _
  split
  · split
    · split <;> simp
    · rfl
  · rfl

@[simp] theorem newMembers_tap (m : BitVec 8) : (s.newMembers m).tap = s.tap := by simp [newMembers]
@[simp] theorem linkChanged_tap : s.linkChanged.tap = s.tap := by simp [linkChanged]
@[simp] theorem upstreamGone_tap (p : Nat) : (s.upstreamGone p).tap = s.tap := by simp [upstreamGone]
@[simp] theorem portDown_tap (p reason what : Nat) : (s.portDown p reason what).tap = s.tap := by simp [portDown]
@[simp] theorem portQuarantine_tap (p : Nat) : (s.portQuarantine p).tap = s.tap := by simp [portQuarantine]

@[simp] theorem keysLost_tap (before : State) : (s.keysLost before).tap = s.tap := by
  simp [keysLost, quarantineAll, flushAlarms]

@[simp] theorem sendRefused_tap (gsrc : Nat) (u : Bool) (cause : BitVec 8) (px : Nat) :
    (s.sendRefused gsrc u cause px).tap = s.tap := by
  simp [sendRefused]

@[simp] theorem writeProxy_tap (n gsrc : Nat) (e : Entry) (stamp : BitVec 32) (fl : BitVec 8) (handoff : Bool) :
    (s.writeProxy n gsrc e stamp fl handoff).tap = s.tap := by
  simp [writeProxy]

@[simp] theorem proxyOpened_tap (gsrc : Nat) (e : Entry) (stamp : BitVec 32) (fl : BitVec 8) :
    (s.proxyOpened gsrc e stamp fl).tap = s.tap := by
  unfold proxyOpened
  cases s.allotProxy e <;> simp

@[simp] theorem proxyHanded_tap (gsrc : Nat) (e : Entry) (stamp : BitVec 32) (fl : BitVec 8) :
    (s.proxyHanded gsrc e stamp fl).tap = s.tap := by
  unfold proxyHanded
  cases s.allotProxy e <;> simp

@[simp] theorem handoffBack_tap (n : Nat) : (s.handoffBack n).tap = s.tap := by
  simp only [handoffBack]
  split
  · exact onSource_tap s n _ fun t => by split <;> simp
  · rfl

@[simp] theorem handoffSweep_tap : s.handoffSweep.tap = s.tap := by simp [handoffSweep]

@[simp] theorem proxyCommit_tap (gsrc : Nat) (e : Entry) : (s.proxyCommit gsrc e).tap = s.tap := by
  simp only [proxyCommit]
  split <;> simp

@[simp] theorem proxyClosing_tap (gsrc : Nat) : (s.proxyClosing gsrc).tap = s.tap := by
  simp only [proxyClosing]
  split
  · rfl
  · refine onSource_tap _ _ _ fun t => ?_
    split
    · split <;> simp
    · simp

@[simp] theorem dropProxy_tap (n : Nat) : (s.dropProxy n).tap = s.tap := by
  simp only [dropProxy]
  split
  · split <;> simp
  · simp

@[simp] theorem proxyDiscard_tap (gsrc : Nat) : (s.proxyDiscard gsrc).tap = s.tap := by
  simp only [proxyDiscard]
  split <;> simp

@[simp] theorem bringBack_tap (n : Nat) (firing : Option (BitVec 32)) (fl : BitVec 8) (head : Bool) :
    (s.bringBack n firing fl head).tap = s.tap := by
  simp only [bringBack]
  split <;> simp

@[simp] theorem atHome_tap (gsrc : BitVec 24) (f : Nat → State → State) (hf : ∀ x t, (f x t).tap = t.tap) :
    (s.atHome gsrc f).tap = s.tap := by
  simp [atHome, hf]

@[simp] theorem pretOpened_tap (gsrc : BitVec 24) (px : BitVec 14) : (s.pretOpened gsrc px).tap = s.tap := by
  simp [pretOpened]

@[simp] theorem rrToRemote_tap (g : Option (Nat × BitVec 13)) : (s.rrToRemote g).tap = s.tap := by
  simp only [rrToRemote]
  split <;> simp

@[simp] theorem pretHandback_tap (gsrc : BitVec 24) (stamp : BitVec 32) (fl : BitVec 8) :
    (s.pretHandback gsrc stamp fl).tap = s.tap := by
  simp [pretHandback]

@[simp] theorem pretReturned_tap (gsrc : BitVec 24) (stamp : BitVec 32) (fl : BitVec 8) :
    (s.pretReturned gsrc stamp fl).tap = s.tap := by
  simp [pretReturned]

@[simp] theorem countClosed_tap (n : Nat) : (s.countClosed n).tap = s.tap := by
  simp only [countClosed]
  split <;> simp

@[simp] theorem pretRefused_tap (org : Nat) (gsrc : BitVec 24) (cause : BitVec 8) :
    (s.pretRefused org gsrc cause).tap = s.tap := by
  refine atHome_tap s gsrc _ fun n t => ?_
  split
  · rfl
  · dsimp only
    split
    · simp
    · split
      · simp
      · split
        · split <;> simp
        · simp

theorem eventFrame_tap {s t : State} {stamp : BitVec 64} {gsrc : BitVec 24} {kind : BitVec 8}
    (h : s.eventFrame stamp gsrc kind = some t) : t.tap = s.tap := by
  simp only [eventFrame] at h
  split at h
  · split at h
    · cases h
      simp
    · rw [enterWindow_tap h]
      simp
  · cases h
    rfl

theorem bodyWork_tap {s t : State} {org : Nat} {b : FrameBody} (h : s.bodyWork org b = some t) : t.tap = s.tap := by
  simp only [bodyWork] at h
  split at h
  · exact eventFrame_tap h
  · obtain rfl := Option.some.inj h
    split <;> simp
  · obtain rfl := Option.some.inj h
    split <;> simp
  · obtain rfl := Option.some.inj h
    rfl

theorem applyBody_tap {s t : State} {org : Nat} {b : FrameBody} (h : s.applyBody org b = some t) : t.tap = s.tap := by
  simp only [applyBody] at h
  split at h
  · exact bodyWork_tap h
  · cases h

@[simp] theorem drainE2e_tap (org k : Nat) : (s.drainE2e org k).tap = s.tap := by
  induction k generalizing s with
  | zero => rfl
  | succ k ih =>
    simp only [drainE2e]
    split
    · rfl
    · split
      · rfl
      · next h => simp [ih, applyBody_tap h]

@[simp] theorem receive_tap (h : RxHdr) (b : FrameBody) : (s.receive h b).tap = s.tap := by simp [receive]
@[simp] theorem pumpLinks_tap : s.pumpLinks.tap = s.tap := by simp [pumpLinks]
@[simp] theorem e2eAcked_tap (org ack : Nat) : (s.e2eAcked org ack).tap = s.tap := by simp [e2eAcked]
@[simp] theorem reopen_tap (n : Nat) : (s.reopen n).tap = s.tap := by simp [reopen]

@[simp] theorem memberRestarted_tap (d : Nat) : (s.memberRestarted d).tap = s.tap := by
  simp only [memberRestarted, ite_tap, sendHeld_tap, ite_self]
  refine (foldl_tap _ _ (fun t q => ?_) _).trans ?_
  · split
    · split <;> simp
    · rfl
  · simp

@[simp] theorem learnBoot_tap (d cnt : Nat) : (s.learnBoot d cnt).tap = s.tap := by simp [learnBoot]
@[simp] theorem heartbeat_tap : s.heartbeat.tap = s.tap := by simp [heartbeat]
@[simp] theorem heard_tap (p : Nat) (m : TopoMsg) : (s.heard p m).tap = s.tap := by simp [heard]
@[simp] theorem takeover_tap : s.takeover.tap = s.tap := by simp [takeover]
@[simp] theorem newMap_tap (p : Nat) (m : TopoMsg) : (s.newMap p m).tap = s.tap := by simp [newMap]
@[simp] theorem exclude_tap : s.exclude.tap = s.tap := by simp [exclude]

@[simp] theorem report_tap (org : Nat) (serial : BitVec 96) (pairings : BitVec 32) (al : Bool) :
    (s.report org serial pairings al).tap = s.tap := by
  simp only [report]
  repeat' split
  all_goals simp

@[simp] theorem summarySend_tap : s.summarySend.tap = s.tap := by simp [summarySend]

@[simp] theorem summaryHeard_tap (p org : Nat) (es : List (BitVec 20)) : (s.summaryHeard p org es).tap = s.tap := by
  simp [summaryHeard]

@[simp] theorem alarmRecord_tap (p : Nat) (stamp : BitVec 64) (detail : Nat) :
    (s.alarmRecord p stamp detail).tap = s.tap := by
  simp [alarmRecord]

@[simp] theorem alarmHeard_tap (p : Nat) (stamp : BitVec 64) (org : BitVec 3) (line : BitVec 5) (tok : BitVec 96) :
    (s.alarmHeard p stamp org line tok).tap = s.tap := by
  simp only [alarmHeard]
  repeat' split
  all_goals simp

@[simp] theorem alarmDoubt_tap (p : Nat) (a : BitVec 3 × BitVec 5 × BitVec 64) : (s.alarmDoubt p a).tap = s.tap := by
  simp only [alarmDoubt]
  split <;> simp

@[simp] theorem alarmRepeat_tap (p : Nat) : (s.alarmRepeat p).tap = s.tap := by
  simp only [alarmRepeat]
  split <;> simp

@[simp] theorem replayFrom_tap (p : Nat) (seq : BitVec 12) : (s.replayFrom p seq).tap = s.tap := by
  simp only [replayFrom]
  split <;> simp [resendOne]

@[simp] theorem replayStall_tap (p : Nat) : (s.replayStall p).tap = s.tap := by
  simp only [replayStall]
  split <;> simp

@[simp] theorem batchTag_tap (p : Nat) (fs : List RxFrame) (mac : BitVec 96) (first : BitVec 12) (count : BitVec 8) :
    (s.batchTag p fs mac first count).tap = s.tap := by
  simp only [batchTag]
  split <;> simp [acceptAll, acceptFrame, acked]

@[simp] theorem authSend_tap (p step : Nat) (msg : List (BitVec 8)) : (s.authSend p step msg).tap = s.tap := by rfl
@[simp] theorem authBegin_tap (p : Nat) : (s.authBegin p).tap = s.tap := by simp [authBegin]

@[simp] theorem transcribe_tap (p dev : Nat) (own heard : List (BitVec 8)) :
    (s.transcribe p dev own heard).tap = s.tap := by rfl

@[simp] theorem helloHeard_tap (p : Nat) (m : HelloMsg) : (s.helloHeard p m).tap = s.tap := by simp [helloHeard]
@[simp] theorem certHeard_tap (p : Nat) (m : CertMsg) : (s.certHeard p m).tap = s.tap := by simp [certHeard]

@[simp] theorem keyxHeard_tap (p : Nat) (m : KeyxMsg) : (s.keyxHeard p m).tap = s.tap := by
  simp only [keyxHeard]
  split
  · rfl
  · split <;> simp

@[simp] theorem confirmHeard_tap (p : Nat) (ok : Bool) : (s.confirmHeard p ok).tap = s.tap := by
  simp [confirmHeard, portUp, headwaterJoins]

/-! ### The timebase (R251 to R270) -/

@[simp] theorem onTbPort_tap (p : Nat) (f : TbPort → TbPort) : (s.onTbPort p f).tap = s.tap := by rfl
@[simp] theorem sendMarker_tap (p : Nat) : (s.sendMarker p).tap = s.tap := by simp [sendMarker]

@[simp] theorem markerHeard_tap (p : Nat) (m : MarkerMsg) (received : BitVec 48) :
    (s.markerHeard p m received).tap = s.tap := by
  simp [markerHeard]

@[simp] theorem seekUp_tap : s.seekUp.tap = s.tap := by
  simp only [seekUp]
  split
  · split <;> simp
  · rfl

@[simp] theorem recordDelay_tap (p : Nat) (x : Exchange) : (s.recordDelay p x).tap = s.tap := by rfl
@[simp] theorem servo_tap (off : Int) : (s.servo off).tap = s.tap := by simp [servo, reachAligned, offsetJump]

@[simp] theorem timeHeard_tap (p : Nat) (m : MarkerMsg) : (s.timeHeard p m).tap = s.tap := by
  simp only [timeHeard]
  repeat' split
  all_goals simp

@[simp] theorem markersStopped_tap : s.markersStopped.tap = s.tap := by simp [markersStopped]
@[simp] theorem holdoverEnds_tap : s.holdoverEnds.tap = s.tap := by simp [holdoverEnds]
@[simp] theorem onAoclk_tap (f : Tb → Tb) (detail : Nat) : (s.onAoclk f detail).tap = s.tap := by simp [onAoclk]
@[simp] theorem pllLoss_tap : s.pllLoss.tap = s.tap := by simp [pllLoss]
@[simp] theorem countMismatch_tap (good : Tick) : (s.countMismatch good).tap = s.tap := by simp [countMismatch]
@[simp] theorem checkRate_tap (ticks : Nat) : (s.checkRate ticks).tap = s.tap := by simp [checkRate]
@[simp] theorem pllBack_tap : s.pllBack.tap = s.tap := by simp [pllBack]
@[simp] theorem calibrate_tap (refCycles : Nat) : (s.calibrate refCycles).tap = s.tap := by rfl

/-! ### Lanes (R296 to R330) -/

@[simp] theorem onPLanes_tap (p : Nat) (f : PortLanes → PortLanes) : (s.onPLanes p f).tap = s.tap := by rfl

@[simp] theorem dropLane_tap (p k : Nat) (r : OutReason) : (s.dropLane p k r).tap = s.tap := by
  simp only [dropLane]
  split <;> simp

@[simp] theorem sendLane_tap (p op k reason : Nat) (mask : BitVec 4) :
    (s.sendLane p op k reason mask).tap = s.tap := by rfl

@[simp] theorem lastLaneDown_tap (p : Nat) : (s.lastLaneDown p).tap = s.tap := by simp [lastLaneDown]
@[simp] theorem takeOut_tap (p k : Nat) (r : OutReason) : (s.takeOut p k r).tap = s.tap := by simp [takeOut]
@[simp] theorem removeLane_tap (p k : Nat) (r : OutReason) : (s.removeLane p k r).tap = s.tap := by simp [removeLane]

@[simp] theorem holdLane_tap (p k : Nat) (r : OutReason) : (s.holdLane p k r).tap = s.tap := by
  simp only [holdLane]
  split <;> simp

@[simp] theorem laneDowned_tap (p k : Nat) (r : OutReason) (mask : BitVec 4) :
    (s.laneDowned p k r mask).tap = s.tap := by
  simp [laneDowned]

@[simp] theorem downAcked_tap (p : Nat) (mask : BitVec 4) : (s.downAcked p mask).tap = s.tap := by rfl

@[simp] theorem downAgain_tap (p : Nat) : (s.downAgain p).tap = s.tap := by
  simp only [downAgain]
  split <;> simp

@[simp] theorem downLost_tap (p : Nat) : (s.downLost p).tap = s.tap := by simp [downLost]

@[simp] theorem reanchor_tap (p : Nat) : (s.reanchor p).tap = s.tap := by
  simp only [reanchor]
  split <;> simp

@[simp] theorem joinLanes_tap (p : Nat) : (s.joinLanes p).tap = s.tap := by simp [joinLanes]
@[simp] theorem upDone_tap (p l : Nat) : (s.upDone p l).tap = s.tap := by simp [upDone]

@[simp] theorem upHeard_tap (p k : Nat) : (s.upHeard p k).tap = s.tap := by
  simp only [upHeard]
  split <;> simp

@[simp] theorem alignSent_tap (p : Nat) : (s.alignSent p).tap = s.tap := by simp [alignSent]

@[simp] theorem alignHeard_tap (p : Nat) (mask heard : BitVec 4) (count : BitVec 32) :
    (s.alignHeard p mask heard count).tap = s.tap := by
  simp [alignHeard]

@[simp] theorem laneLost_tap (l : Nat) : (s.laneLost l).tap = s.tap := by
  simp only [laneLost]
  split <;> simp [unadmit]

@[simp] theorem tsHeard_tap (l : Nat) (m : TsMsg) : (s.tsHeard l m).tap = s.tap := by simp [tsHeard, laneCount]
@[simp] theorem trainDone_tap (p : Nat) : (s.trainDone p).tap = s.tap := by simp [trainDone, trainedPort]
@[simp] theorem attemptFailed_tap (l : Nat) : (s.attemptFailed l).tap = s.tap := by simp [attemptFailed]

@[simp] theorem attemptEnd_tap (l : Nat) (r : Attempt) (c : LaneCodes) : (s.attemptEnd l r c).tap = s.tap := by
  simp [attemptEnd, attemptPassed, enterService, calibrated]

@[simp] theorem retryLane_tap (l : Nat) : (s.retryLane l).tap = s.tap := by simp [retryLane]
@[simp] theorem trainPort_tap (p : Nat) : (s.trainPort p).tap = s.tap := by simp [trainPort]
@[simp] theorem retryPort_tap (p : Nat) : (s.retryPort p).tap = s.tap := by simp [retryPort]
@[simp] theorem drift_tap (l : Nat) (c : LaneCodes) : (s.drift l c).tap = s.tap := by simp [drift]
@[simp] theorem idleEntry_tap (p : Nat) : (s.idleEntry p).tap = s.tap := by simp [idleEntry]
@[simp] theorem eiosHeard_tap (p : Nat) : (s.eiosHeard p).tap = s.tap := by simp [eiosHeard]
@[simp] theorem wakeLink_tap (p : Nat) : (s.wakeLink p).tap = s.tap := by simp [wakeLink]
@[simp] theorem idleExit_tap (p : Nat) : (s.idleExit p).tap = s.tap := by simp [idleExit]
@[simp] theorem burst_tap (p : Nat) : (s.burst p).tap = s.tap := by simp [burst]

@[simp] theorem exitReanchor_tap (p : Nat) : (s.exitReanchor p).tap = s.tap := by
  simp only [exitReanchor]
  split <;> simp

@[simp] theorem blockLocked_tap (l : Nat) : (s.blockLocked l).tap = s.tap := by
  simp only [blockLocked]
  split <;> simp

@[simp] theorem hearBlocks_tap (l : Nat) (bs : List (BitVec 130)) : (s.hearBlocks l bs).tap = s.tap := by
  simp [hearBlocks, hearBlock]

@[simp] theorem lossEvent_tap (l : Nat) (why : LossWhy) : (s.lossEvent l why).tap = s.tap := by
  simp only [lossEvent]
  split <;> simp

@[simp] theorem idleExitLost_tap (p : Nat) : (s.idleExitLost p).tap = s.tap := by simp [idleExitLost]
@[simp] theorem applyCfg_tap (l : Nat) (c : LaneCfg) : (s.applyCfg l c).tap = s.tap := by simp [applyCfg]

@[simp] theorem applyLane_tap (l : Nat) : (s.applyLane l).tap = s.tap := by
  simp only [applyLane]
  split <;> simp [applyOutside]

@[simp] theorem retrainLane_tap (l : Nat) : (s.retrainLane l).tap = s.tap := by
  simp only [retrainLane]
  split <;> simp

@[simp] theorem applyWrite_tap (l : Nat) (v : BitVec 64) : (s.applyWrite l v).1.tap = s.tap := by simp [applyWrite]
@[simp] theorem unstage_tap : s.unstage.tap = s.tap := by rfl
@[simp] theorem stageLane_tap (l : Nat) (f : LaneCfg → LaneCfg) : (s.stageLane l f).tap = s.tap := by rfl
@[simp] theorem injectBit_tap (l : Nat) : (s.injectBit l).tap = s.tap := by simp [injectBit]
@[simp] theorem injectPeriodic_tap (l : Nat) : (s.injectPeriodic l).tap = s.tap := by simp [injectPeriodic]
@[simp] theorem prbsBits_tap (l : Nat) (bits : List Bool) : (s.prbsBits l bits).tap = s.tap := by simp [prbsBits]
@[simp] theorem prbsRead_tap (l : Nat) : (s.prbsRead l).1.tap = s.tap := by simp [prbsRead]

/-! ### Wired lines (R38 to R40, R115 to R120) -/

@[simp] theorem reportWired_tap (n : Nat) (stamp : Tick) (level : Bool) :
    (s.reportWired n stamp level).tap = s.tap := by
  simp [reportWired, reportLine]

@[simp] theorem asyncEvent_tap (n : Nat) (pin refclk : Bool) : (s.asyncEvent n pin refclk).tap = s.tap := by
  simp [asyncEvent, latchAsync]

@[simp] theorem capture_tap (n : Nat) (pin : Bool) : (s.capture n pin).tap = s.tap := by simp [capture]

@[simp] theorem dormantWake_tap (w : WakeInput) (refclk : Bool) : (s.dormantWake w refclk).tap = s.tap := by
  simp only [dormantWake]
  split
  · rfl
  · split <;> simp

@[simp] theorem passAsyncs_tap : s.passAsyncs.tap = s.tap := by simp [passAsyncs]

/-! ### Levels, ageing, sleep and wakes (R372 to R395) -/

@[simp] theorem onLvl_tap (l : Nat) (f : Lvl → Lvl) : (s.onLvl l f).tap = s.tap := by rfl
@[simp] theorem drive_tap (code : Nat) (op : SeqOp) : (s.drive code op).tap = s.tap := by rfl
@[simp] theorem levelRefused_tap (t code : Nat) : (s.levelRefused t code).tap = s.tap := by simp [levelRefused]
@[simp] theorem startLevel_tap (t : Nat) : (s.startLevel t).tap = s.tap := by simp [startLevel]
@[simp] theorem levelDone_tap (t : Nat) : (s.levelDone t).tap = s.tap := by rfl
@[simp] theorem noteMargins_tap (l : Nat) (m : Margins) : (s.noteMargins l m).tap = s.tap := by rfl
@[simp] theorem stepUp_tap (l : Nat) (op : SeqOp) : (s.stepUp l op).tap = s.tap := by simp [stepUp]
@[simp] theorem retireLvl_tap (l : Nat) (m : Margins) : (s.retireLvl l m).tap = s.tap := by simp [retireLvl]
@[simp] theorem ageLoop_tap (l : Nat) (m : Margins) : (s.ageLoop l m).tap = s.tap := by simp [ageLoop]

@[simp] theorem ageNext_tap : s.ageNext.tap = s.tap := by
  simp only [ageNext]
  split <;> simp [agePlan, retireOver]

@[simp] theorem levelNext_tap : s.levelNext.tap = s.tap := by
  simp only [levelNext]
  split <;> simp

@[simp] theorem seqNext_tap : s.seqNext.tap = s.tap := by simp [seqNext, wakeNext, restoreNext]
@[simp] theorem ageReading_tap (m : Margins) : (s.ageReading m).tap = s.tap := by simp [ageReading]

@[simp] theorem ageAgain_tap (m : Margins) : (s.ageAgain m).tap = s.tap := by
  simp only [ageAgain]
  split <;> simp

@[simp] theorem ceilings_tap (b : ImageBody) : (s.ceilings b).tap = s.tap := by simp [ceilings]

@[simp] theorem raiseCheck_tap (t : Nat) (ms : List Margins) : (s.raiseCheck t ms).tap = s.tap := by
  induction ms generalizing s with
  | nil => rfl
  | cons m rest ih => simp [raiseCheck, ih]

@[simp] theorem voltageReached_tap (ms : List Margins) : (s.voltageReached ms).tap = s.tap := by
  simp only [voltageReached]
  split <;> simp

@[simp] theorem levelWrite_tap (t : Nat) (world : Bool) : (s.levelWrite t world).tap = s.tap := by simp [levelWrite]
@[simp] theorem floorWrite_tap (f : Nat) : (s.floorWrite f).tap = s.tap := by simp [floorWrite]
@[simp] theorem sleepResult_tap (code first : Nat) : (s.sleepResult code first).tap = s.tap := by simp [sleepResult]
@[simp] theorem sleepEnd_tap (code first : Nat) : (s.sleepEnd code first).tap = s.tap := by simp [sleepEnd]
@[simp] theorem commitBegin_tap : s.commitBegin.tap = s.tap := by simp [commitBegin]
@[simp] theorem entered_tap (d v : Nat) : (s.entered d v).tap = s.tap := by simp [entered]
@[simp] theorem rollbackBegin_tap : s.rollbackBegin.tap = s.tap := by simp [rollbackBegin]
@[simp] theorem stopBegin_tap (d : Nat) : (s.stopBegin d).tap = s.tap := by simp [stopBegin]

@[simp] theorem commitStep_tap (k : Nat) : (s.commitStep k).tap = s.tap := by
  induction k generalizing s with
  | zero => rfl
  | succ k ih =>
    simp only [commitStep]
    repeat' split
    all_goals simp [ih]

@[simp] theorem prepare_tap (world : Bool) (plan : List (Nat × Nat)) : (s.prepare world plan).tap = s.tap := by
  simp [prepare]

@[simp] theorem wakeDom_tap (d : Nat) : (s.wakeDom d).tap = s.tap := by simp [wakeDom]
@[simp] theorem sleepOn_tap (ds : List Nat) : (s.sleepOn ds).tap = s.tap := by simp [sleepOn]

@[simp] theorem sleepDoze_tap (ds : List Nat) (plan : List (Nat × Nat)) : (s.sleepDoze ds plan).tap = s.tap := by
  simp [sleepDoze]

@[simp] theorem sleepWrite_tap (world : Bool) (v : BitVec 64) : (s.sleepWrite world v).tap = s.tap := by
  simp only [sleepWrite]
  split
  · rfl
  · split <;> simp

@[simp] theorem vote_tap (d : Nat) : (s.vote d).tap = s.tap := by
  simp only [vote]
  repeat' split
  all_goals simp

@[simp] theorem prepareEnds_tap : s.prepareEnds.tap = s.tap := by simp [prepareEnds]
@[simp] theorem regate_tap (d : Nat) : (s.regate d).tap = s.tap := by simp [regate]
@[simp] theorem domsUp_tap (ds : List Nat) : (s.domsUp ds).tap = s.tap := by simp [domsUp, domUp, tbUp, restoreCount]

@[simp] theorem stopAck_tap : s.stopAck.tap = s.tap := by
  simp only [stopAck]
  split <;> simp

@[simp] theorem rollbackAck_tap : s.rollbackAck.tap = s.tap := by simp [rollbackAck]
@[simp] theorem powerAck_tap (ack : BitVec 28) : (s.powerAck ack).tap = s.tap := by simp [powerAck, wakeAck]
@[simp] theorem vgoodBack_tap (ms : List Margins) : (s.vgoodBack ms).tap = s.tap := by simp [vgoodBack]
@[simp] theorem vgoodLost_tap : s.vgoodLost.tap = s.tap := by simp [vgoodLost, voltageLost]

@[simp] theorem wakeAll_tap : s.wakeAll.tap = s.tap := by
  simp only [wakeAll]
  repeat' split
  all_goals simp

@[simp] theorem holdClear_tap (v : BitVec 28) : (s.holdClear v).tap = s.tap := by rfl

@[simp] theorem holdSet_tap (v : BitVec 28) : (s.holdSet v).tap = s.tap := by
  simp only [holdSet]
  split <;> simp

@[simp] theorem wakeFails_tap (d : Nat) : (s.wakeFails d).tap = s.tap := by simp [wakeFails]

/-! ### Resets and the start (R9, R59 to R78) -/

@[simp] theorem undefinedPulse_tap : s.undefinedPulse.tap = s.tap := by
  simp only [undefinedPulse]
  split <;> rfl

theorem pulse_tap (width : Nat) {s t : State} (h : t.tap = s.tap) : (pulse width s t).tap = s.tap := by simp [pulse, h]
@[simp] theorem coldCleared_tap : s.coldCleared.tap = s.tap := by rfl
@[simp] theorem stepLog_tap (step outcome : Nat) : (s.stepLog step outcome).tap = s.tap := by rfl
@[simp] theorem markReset_tap (cause : Nat) : (s.markReset cause).tap = s.tap := by rfl
@[simp] theorem atStep_tap (n : Nat) : (s.atStep n).tap = s.tap := by rfl
@[simp] theorem exitAt_tap (code : Nat) : (s.exitAt code).tap = s.tap := by rfl
@[simp] theorem stepPass_tap : s.stepPass.tap = s.tap := by rfl
@[simp] theorem stepDone_tap : s.stepDone.tap = s.tap := by simp [stepDone]
@[simp] theorem haltAt_tap (code : Nat) : (s.haltAt code).tap = s.tap := by rfl

@[simp] theorem andThen_tap (f : State → State) (hf : ∀ t, (f t).tap = t.tap) : (s.andThen f).tap = s.tap := by
  simp [andThen, hf]

@[simp] theorem powered_tap (ds : List Nat) : (s.powered ds).tap = s.tap := by simp [powered, powerOne]
@[simp] theorem step4_tap (ok : Bool) : (s.step4 ok).tap = s.tap := by simp [step4]
@[simp] theorem step5_tap (ok : Bool) : (s.step5 ok).tap = s.tap := by simp [step5]
@[simp] theorem loadImages_tap (x : ImageSet) : (s.loadImages x).tap = s.tap := by rfl
@[simp] theorem noteFail_tap (c : Nat) : (s.noteFail c).tap = s.tap := by simp [noteFail]
@[simp] theorem fetchSet_tap (ptr : BitVec 48) (x : ImageSet) : (s.fetchSet ptr x).tap = s.tap := by simp [fetchSet]

@[simp] theorem step6_tap (e : StartEnv) : (s.step6 e).tap = s.tap := by
  simp only [step6]
  repeat' split
  all_goals simp

@[simp] theorem enterLevel_tap (l : Nat) : (s.enterLevel l).tap = s.tap := by rfl

@[simp] theorem bootCheck_tap (t k : Nat) (ms : List Margins) : (s.bootCheck t k ms).tap = s.tap := by
  induction k generalizing s t ms with
  | zero => simp [bootCheck]
  | succ k ih => simp [bootCheck, ih]

@[simp] theorem bootLevel_tap (b : ImageBody) (e : StartEnv) : (s.bootLevel b e).tap = s.tap := by simp [bootLevel]

@[simp] theorem step7_tap (b : ImageBody) (e : StartEnv) : (s.step7 b e).tap = s.tap := by
  simp only [step7]
  repeat' split
  all_goals simp

@[simp] theorem banksAtStart_tap (pla : Bool) (bad : List (BitVec 6)) : (s.banksAtStart pla bad).tap = s.tap := by
  simp only [banksAtStart]
  split <;> simp [spareAtStart]

@[simp] theorem step8_tap (t : SelfTest) : (s.step8 t).tap = s.tap := by simp [step8]
@[simp] theorem step9_tap (t : SelfTest) : (s.step9 t).tap = s.tap := by simp [step9]
@[simp] theorem countEntries_tap : s.countEntries.tap = s.tap := by simp [countEntries]
@[simp] theorem sampleLines_tap : s.sampleLines.tap = s.tap := by simp [sampleLines]

@[simp] theorem enterReady_tap : s.enterReady.tap = s.tap := by
  refine unlessFatal_tap s _ fun t => ?_
  dsimp only
  split <;> split <;> simp

@[simp] theorem trainAtStart_tap (e : StartEnv) (p : Nat) : (s.trainAtStart e p).tap = s.tap := by simp [trainAtStart]
@[simp] theorem joined_tap : s.joined.tap = s.tap := by simp [joined]
@[simp] theorem checkOver_tap : s.checkOver.tap = s.tap := by simp [checkOver]
@[simp] theorem sendNotice_tap : s.sendNotice.tap = s.tap := by simp [sendNotice]
@[simp] theorem linksSettled_tap : s.linksSettled.tap = s.tap := by simp [linksSettled, beginJoin, discover]
@[simp] theorem portExit_tap (before : State) (p : Nat) : (s.portExit before p).tap = s.tap := by simp [portExit]

@[simp] theorem portSettled_tap (before : State) (p : Nat) : (s.portSettled before p).tap = s.tap := by
  simp [portSettled]

@[simp] theorem portsSettled_tap (before : State) : (s.portsSettled before).tap = s.tap := by simp [portsSettled]
@[simp] theorem authPorts_tap : s.authPorts.tap = s.tap := by simp [authPorts]

@[simp] theorem startWith_tap (b : ImageBody) (e : StartEnv) : (s.startWith b e).tap = s.tap := by
  simp [startWith, step10, loadPorts, step11]

@[simp] theorem startUp_tap (e : StartEnv) : (s.startUp e).tap = s.tap := by
  simp only [startUp]
  split <;> simp [step1, step2, step3]

@[simp] theorem coldStart_tap (e : StartEnv) : (s.coldStart e).tap = s.tap := by simp [coldStart]
@[simp] theorem readyAlone_tap : s.readyAlone.tap = s.tap := by simp [readyAlone]
@[simp] theorem joinTimeout_tap : s.joinTimeout.tap = s.tap := by simp [joinTimeout]
@[simp] theorem noticeReady_tap : s.noticeReady.tap = s.tap := by simp [noticeReady]
@[simp] theorem dropDelivery_tap : s.dropDelivery.tap = s.tap := by rfl

@[simp] theorem roleAfresh_tap : s.roleAfresh.tap = s.tap := by
  simp only [roleAfresh]
  repeat' split
  all_goals simp

@[simp] theorem dropLinks_tap : s.dropLinks.tap = s.tap := by simp [dropLinks]
@[simp] theorem stewardRestart_tap : s.stewardRestart.tap = s.tap := by rfl
@[simp] theorem dropSteward_tap : s.dropSteward.tap = s.tap := by simp [dropSteward]
@[simp] theorem warmFall_tap : s.warmFall.tap = s.tap := by simp [warmFall, dropStates, dropConfluence, dropTransfers]

@[simp] theorem warmSequence_tap (t : SelfTest) : (s.warmSequence t).tap = s.tap := by
  simp [warmSequence, warmClear, warmLinks]

@[simp] theorem warmGo_tap : s.warmGo.tap = s.tap := by
  refine unlessFatal_tap s _ fun t => ?_
  split
  · split <;> simp
  · rfl

@[simp] theorem warmRelease_tap (t : SelfTest) : (s.warmRelease t).tap = s.tap := by simp [warmRelease]

/-! ### Scrub, rebuild, self-tests and monitors (R163 to R170, R198 to R201, R400) -/

@[simp] theorem scrubArray_tap (pla : Bool) (r : RowRead) : (s.scrubArray pla r).tap = s.tap := by simp [scrubArray]
@[simp] theorem scrubNext_tap : s.scrubNext.tap = s.tap := by rfl
@[simp] theorem scrub_tap (ssa pla : RowRead) : (s.scrub ssa pla).tap = s.tap := by simp [scrub]
@[simp] theorem rebuild_tap (pla : Bool) : (s.rebuild pla).tap = s.tap := by simp [rebuild]
@[simp] theorem selftestEnd_tap (a b : Bool) : (s.selftestEnd a b).tap = s.tap := by simp [selftestEnd]
@[simp] theorem shadow_tap (c : Nat) (agree : Bool) : (s.shadow c agree).tap = s.tap := by simp [shadow]
@[simp] theorem linkStoreDone_tap : s.linkStoreDone.tap = s.tap := by rfl

@[simp] theorem clockFault_tap (c : ClockId) (stopped : Bool) : (s.clockFault c stopped).tap = s.tap := by
  simp [clockFault]

@[simp] theorem debugChange_tap (en : BitVec 4) : (s.debugChange en).tap = s.tap := by
  simp only [debugChange]
  repeat' split
  all_goals simp

@[simp] theorem watchdog_tap : s.watchdog.tap = s.tap := by simp [watchdog]

/-! ### The steward mailbox (R451 to R453) -/

@[simp] theorem mailOwn_tap (world : Bool) (v : BitVec 64) : (s.mailOwn world v).1.tap = s.tap := by
  simp [mailOwn, mailClaim, mailRelease]

@[simp] theorem mailCmd_tap (world : Bool) (cmd : Nat) : (s.mailCmd world cmd).1.tap = s.tap := by simp [mailCmd]
@[simp] theorem mailEnd_tap (e : MailEnv) : (s.mailEnd e).tap = s.tap := by simp [mailEnd]

/-! ### Register banks and refusals (R446) -/

@[simp] theorem onBank_tap (a : Acc) (f : Bank → Bank) : (s.onBank a f).tap = s.tap := by rfl
@[simp] theorem countRefused_tap (a : Acc) : (s.countRefused a).tap = s.tap := by rfl
@[simp] theorem countIgnored_tap (a : Acc) : (s.countIgnored a).tap = s.tap := by rfl
@[simp] theorem countFireFault_tap (a : Acc) : (s.countFireFault a).tap = s.tap := by rfl

/-! ### Register reads -/

@[simp] theorem regClear_tap (a : Acc) (r : Reg) (p : Part) : (s.regClear a r p).tap = s.tap := by
  simp only [regClear]
  repeat' split
  all_goals simp

@[simp] theorem readCount_tap (a : Acc) (p : Part) : (s.readCount a p).1.tap = s.tap := by
  simp only [readCount]
  repeat' split
  all_goals simp

@[simp] theorem readFix_tap (a : Acc) (k : Reg) : (s.readFix a k).tap = s.tap := by
  have reads : ((s.reachSrc a).elim s fun n => s.onSource n id).tap = s.tap := by
    cases s.reachSrc a <;> simp
  simp only [readFix]
  split
  · exact reads
  · exact reads
  · rfl

theorem readReg_tap {s : State} {a : Acc} {h : Hit} {r : State × BitVec 64} (hr : s.readReg a h = some r) :
    r.1.tap = s.tap := by
  simp only [readReg] at hr
  split at hr
  · obtain rfl := Option.some.inj hr
    simp
  · obtain ⟨v, -, rfl⟩ := Option.map_eq_some_iff.1 hr
    simp

/-! ### Register writes -/

@[simp] theorem poolDirty_tap (n : Nat) : (s.poolDirty n).tap = s.tap := by
  simp only [poolDirty]
  split <;> simp

@[simp] theorem flushLatch_tap (n : Nat) (e' : Entry) : (s.flushLatch n e').tap = s.tap := by simp [flushLatch]

@[simp] theorem commitCfg_tap (a : Acc) (n : Nat) (w : BitVec 64) : (s.commitCfg a n w).1.tap = s.tap := by
  simp only [commitCfg]
  split
  · split <;> simp
  · simp

@[simp] theorem writeCfg_tap (a : Acc) (n : Nat) (p : Part) (v : BitVec 64) : (s.writeCfg a n p v).1.tap = s.tap := by
  simp only [writeCfg]
  split <;> simp

@[simp] theorem writeEn_tap (a : Acc) (n : Nat) (en : Bool) : (s.writeEn a n en).1.tap = s.tap := by simp [writeEn]

@[simp] theorem writeFire_tap (a : Acc) (n : Nat) (fire : Bool) : (s.writeFire a n fire).1.tap = s.tap := by
  simp only [writeFire]
  split
  · rfl
  · split
    · simp
    · split
      · simp
      · split
        · next h => simp [enterWindow_tap h]
        · simp

@[simp] theorem writeDlvCfg_tap (a : Acc) (c : Nat) (v : BitVec 64) : (s.writeDlvCfg a c v).1.tap = s.tap := by
  simp [writeDlvCfg]

@[simp] theorem writeMember_tap (g : Nat) (v : BitVec 64) : (s.writeMember g v).1.tap = s.tap := by
  simp [writeMember, addMember, removeMember]

@[simp] theorem writeHwm_tap (i : Nat) (p : Part) (v : BitVec 64) : (s.writeHwm i p v).tap = s.tap := by simp [writeHwm]

@[simp] theorem writeLogBase_tap (i : Nat) (p : Part) (v : BitVec 64) : (s.writeLogBase i p v).tap = s.tap := by
  simp only [writeLogBase]
  split <;> simp

@[simp] theorem writeSleep_tap (world : Bool) (p : Part) (v : BitVec 64) : (s.writeSleep world p v).tap = s.tap := by
  simp only [writeSleep]
  split <;> simp

@[simp] theorem writePrbs_tap (l : Nat) (v : BitVec 64) : (s.writePrbs l v).tap = s.tap := by simp [writePrbs]
@[simp] theorem writeInj_tap (p : Nat) (v : BitVec 64) : (s.writeInj p v).1.tap = s.tap := by simp [writeInj]
@[simp] theorem writeInjEn_tap (v : BitVec 64) : (s.writeInjEn v).tap = s.tap := by simp [writeInjEn]
@[simp] theorem writeSig_tap (v : BitVec 64) : (s.writeSig v).tap = s.tap := by rfl
@[simp] theorem writeTmr_tap (v : BitVec 64) : (s.writeTmr v).1.tap = s.tap := by simp [writeTmr]
@[simp] theorem writeTail_tap (v : BitVec 64) : (s.writeTail v).1.tap = s.tap := by simp [writeTail]
@[simp] theorem writeTbSt_tap (v : BitVec 64) : (s.writeTbSt v).tap = s.tap := by rfl
@[simp] theorem writeLook_tap (pid : BitVec 20) : (s.writeLook pid).tap = s.tap := by rfl

@[simp] theorem writeMbData_tap (a : Acc) (w : Nat) (p : Part) (v : BitVec 64) :
    (s.writeMbData a w p v).1.tap = s.tap := by
  simp [writeMbData]

@[simp] theorem mailWrite_tap (f : State → WRes) (hf : ∀ t, (f t).1.tap = t.tap) : (s.mailWrite f).1.tap = s.tap := by
  simp [mailWrite, hf]

@[simp] theorem reached_tap (o : Option Nat) (f : Nat → WRes) (hf : ∀ n, (f n).1.tap = s.tap) :
    (s.reached o f).1.tap = s.tap := by
  simp only [reached]
  split <;> simp [hf]

@[simp] theorem writeReg_tap (a : Acc) (h : Hit) : (s.writeReg a h).1.tap = s.tap := by
  simp only [writeReg]
  split
  · rfl
  · split <;> simp

/-! ### The register port (R13 to R19) -/

@[simp] theorem respond_tap (a : Acc) (fault : Bool) (data : BitVec 64) : (s.respond a fault data).tap = s.tap := by rfl
@[simp] theorem writeHits_tap (a : Acc) : (s.writeHits a).1.tap = s.tap := by simp [writeHits]

theorem readHits_tap {s : State} {a : Acc} {r : State × BitVec 64} (h : s.readHits a = some r) : r.1.tap = s.tap := by
  have step (hs : List Hit) (o : Option (State × BitVec 64)) (ho : ∀ q ∈ o, q.1.tap = s.tap) :
      ∀ q ∈ hs.foldl (fun (r : Option (State × BitVec 64)) (h : Hit) => r.bind fun q =>
        (q.1.readReg a h).map fun w => (w.1, q.2 ||| BitVec.shiftLeft w.2 h.shift)) o, q.1.tap = s.tap := by
    induction hs generalizing o with
    | nil => exact ho
    | cons x xs ih =>
      refine ih _ fun q hq => ?_
      obtain ⟨p, hp, hq⟩ := Option.bind_eq_some_iff.1 hq
      obtain ⟨w, hw, rfl⟩ := Option.map_eq_some_iff.1 hq
      exact (readReg_tap hw).trans (ho p hp)
  exact step a.hits _ (fun q hq => by cases hq; rfl) r h

@[simp] theorem runAcc_tap (a : Acc) : (s.runAcc a).tap = s.tap := by
  simp only [runAcc]
  split
  · simp
  · split
    · simp
    · split
      · next h => simp [readHits_tap h]
      · simp

@[simp] theorem queueAcc_tap (a : Acc) : (s.queueAcc a).tap = s.tap := by rfl

@[simp] theorem accEvent_tap (a : Acc) : (s.accEvent a).tap = s.tap := by
  simp only [accEvent]
  split <;> simp

@[simp] theorem access_tap (a : Acc) : (s.access a).tap = s.tap := by simp [access]
@[simp] theorem rawAccess_tap (q : RawReq) (write : Bool) : (s.rawAccess q write).tap = s.tap := by simp [rawAccess]

@[simp] theorem popAcc_tap : s.popAcc.tap = s.tap := by
  simp only [popAcc]
  split <;> simp

@[simp] theorem drainReg_tap (k : Nat) : (s.drainReg k).tap = s.tap := by
  induction k generalizing s with
  | zero => rfl
  | succ k ih =>
    simp only [drainReg]
    split <;> simp [ih]

@[simp] theorem drainAll_tap : s.drainAll.tap = s.tap := by simp [drainAll]
@[simp] theorem release_tap : s.release.tap = s.tap := by simp [release]

@[simp] theorem timeoutReg_tap (d : Nat) : (s.timeoutReg d).tap = s.tap := by
  simp only [timeoutReg]
  split <;> simp

/-! ### What the instructions of the port do outside it (R409) -/

@[simp] theorem aryWrite_tap (pla : Bool) (n : Nat) (v : BitVec 64) : (s.aryWrite pla n v).tap = s.tap := by
  simp [aryWrite]

/-! ### The key port (R48, R49, R416 to R422) -/

@[simp] theorem keyWaits_tap (l : List KeyMsg) : (s.keyWaits l).tap = s.tap := by rfl

@[simp] theorem keyTakeOne_tap : s.keyTakeOne.tap = s.tap := by
  simp only [keyTakeOne]
  split <;> simp

@[simp] theorem keyTake_tap : s.keyTake.tap = s.tap := by simp [keyTake]
@[simp] theorem commitRoots_tap : s.commitRoots.tap = s.tap := by simp [commitRoots]
@[simp] theorem keysGone_tap (before : State) : (s.keysGone before).tap = s.tap := by simp [keysGone]
@[simp] theorem dropLoads_tap : s.dropLoads.tap = s.tap := by simp [dropLoads]

@[simp] theorem invalidateRoot_tap : s.invalidateRoot.tap = s.tap := by
  simp only [invalidateRoot]
  split
  · simp only [keyWaits_tap, keysGone_tap, onKeys_tap, drawn_tap, alarmOriginate_tap, dropLoads_tap]
  · simp only [commitRoots_tap, keysGone_tap, onKeys_tap, drawn_tap, alarmOriginate_tap, dropLoads_tap]

@[simp] theorem keyRun_tap (k : KeyMsg) : (s.keyRun k).tap = s.tap := by
  simp only [keyRun]
  split <;> simp

@[simp] theorem keyNext_tap : s.keyNext.tap = s.tap := by
  simp only [keyNext]
  split
  · simp
  · split <;> simp

@[simp] theorem keyPump_tap (k : Nat) : (s.keyPump k).tap = s.tap := by
  induction k generalizing s with
  | zero => rfl
  | succ k ih => simp [keyPump, ih]

@[simp] theorem keyPumpAll_tap : s.keyPumpAll.tap = s.tap := by simp [keyPumpAll]
@[simp] theorem keyMessage_tap (m : KeyMsg) : (s.keyMessage m).tap = s.tap := by simp [keyMessage]
@[simp] theorem keyRefused_tap : s.keyRefused.tap = s.tap := by simp [keyRefused]
@[simp] theorem keyCommitEnd_tap : s.keyCommitEnd.tap = s.tap := by simp [keyCommitEnd]

@[simp] theorem keyEvent_tap (f : State → State) (hf : ∀ t, (f t).tap = t.tap) : (s.keyEvent f).tap = s.tap := by
  simp [keyEvent, hf]

@[simp] theorem releaseOne_tap (kind d : Nat) : (s.releaseOne kind d).tap = s.tap := by
  simp only [releaseOne]
  split <;> simp [pumpFirstDb]

@[simp] theorem releaseLatched_tap : s.releaseLatched.tap = s.tap := by
  simp only [releaseLatched]
  split <;> simp

@[simp] theorem released_tap : s.released.tap = s.tap := by simp [released]

@[simp] theorem keyOp_tap (op : BitVec 3) (slot : Nat) (beats : List (BitVec 64)) :
    (s.keyOp op slot beats).tap = s.tap := by
  simp only [keyOp]
  split <;> simp [keyLoad]

/-! ### The power sequencer (R43, R386, R389) -/

@[simp] theorem wakeDoms_tap (ds : List Nat) : (s.wakeDoms ds).tap = s.tap := by simp [wakeDoms]
@[simp] theorem wakeTimeout_tap (d : Nat) : (s.wakeTimeout d).tap = s.tap := by simp [wakeTimeout]

/-! ### Ends of stagings and epochs (R107, R108) -/

@[simp] theorem stagingDone_tap (m : MemEnd) (img : Image) : (s.stagingDone m img).tap = s.tap := by simp [stagingDone]
@[simp] theorem structureEpoch_tap : s.structureEpoch.tap = s.tap := by simp [structureEpoch]

/-! ### Commands of delivery (R76, R77, R136 to R139, R182, R188) -/

@[simp] theorem inService_tap (d : Nat) (f : State → State) (hf : ∀ t, (f t).tap = t.tap) :
    (s.inService d f).tap = s.tap := by
  simp [inService, hf]

@[simp] theorem passC4_tap (i : Nat) : (s.passC4 i).tap = s.tap := by
  simp only [passC4]
  split <;> simp

@[simp] theorem spillRelease_tap : s.spillRelease.tap = s.tap := by
  simp only [spillRelease]
  split
  · next h => exact (passC4_tap _ _).trans (grant4_tap h)
  · rfl

@[simp] theorem guardSlot_tap : s.guardSlot.tap = s.tap := by
  simp only [guardSlot]
  split <;> simp

@[simp] theorem passNow_tap (c : Compare) (o : Nat) (h : HeadWord) : (s.passNow c o h).tap = s.tap := by
  simp [passNow, weirPass]

@[simp] theorem slotVisited_tap (k : Nat) (a : Access) (c : Compare) : (s.slotVisited k a c).tap = s.tap := by
  simp only [slotVisited]
  split <;> simp

@[simp] theorem slotVisit_tap (k : Nat) (a : Access) (c : Compare) : (s.slotVisit k a c).tap = s.tap := by
  simp [slotVisit]

@[simp] theorem errorsCome_tap (l : List Upset) : (s.errorsCome l).tap = s.tap :=
  foldl_tap _ _ (fun t u => by cases u <;> rfl) _

@[simp] theorem portFalls_tap (n : Nat) : (s.portFalls n).tap = s.tap := by simp [portFalls]
@[simp] theorem portRises_tap (n : Nat) : (s.portRises n).tap = s.tap := by simp [portRises]

@[simp] theorem awakeSample_tap (n : Nat) (mask : BitVec 32) : (s.awakeSample n mask).tap = s.tap := by
  simp [awakeSample]

@[simp] theorem resolverChecked_tap (c : Compare) : (s.resolverChecked c).tap = s.tap := by simp [resolverChecked]

/-! ### Commands of the cascade (R333 to R366) -/

@[simp] theorem frameOn_tap (p : Nat) (f : State → State) (hf : ∀ t, (f t).tap = t.tap) :
    (s.frameOn p f).tap = s.tap := by
  simp [frameOn, hf]

@[simp] theorem frameIn_tap (f : State → State) (hf : ∀ t, (f t).tap = t.tap) : (s.frameIn f).tap = s.tap := by
  simp [frameIn, hf]

@[simp] theorem e2eIn_tap (h : RxHdr) (b : FrameBody) : (s.e2eIn h b).tap = s.tap := by simp [e2eIn]

@[simp] theorem inCascade_tap (f : State → State) (hf : ∀ t, (f t).tap = t.tap) : (s.inCascade f).tap = s.tap := by
  simp [inCascade, hf]

@[simp] theorem discovered_tap (p : Nat) (m : TopoMsg) : (s.discovered p m).tap = s.tap := by simp [discovered]

@[simp] theorem reported_tap (org : Nat) (serial : BitVec 96) (pairings : BitVec 32) (al : Bool) :
    (s.reported org serial pairings al).tap = s.tap := by
  simp [reported]

@[simp] theorem checked_tap (before : State) (p : Nat) (m : MarkerMsg) : (s.checked before p m).tap = s.tap := by
  simp [checked]

@[simp] theorem partnerQuarantine_tap (p : Nat) : (s.partnerQuarantine p).tap = s.tap := by simp [partnerQuarantine]

@[simp] theorem laneEvent_tap (p : Nat) (f : State → State) (hf : ∀ t, (f t).tap = t.tap) :
    (s.laneEvent p f).tap = s.tap := by
  simp [laneEvent, hf]

@[simp] theorem authIn_tap (p : Nat) (f : State → State) (hf : ∀ t, (f t).tap = t.tap) :
    (s.authIn p f).tap = s.tap := by
  simp [authIn, hf]

/-! ### The fatal dump (R437 to R440) -/

@[simp] theorem dumpEnd_tap (m : MemEnd) (cycles : Nat) : (s.dumpEnd m cycles).tap = s.tap := by simp [dumpEnd, dumpMem]

end State

/-! ### What a command does to DENIED -/

section

variable {s t : State}

/-- A command that leaves the port as it was leaves DENIED set. -/
theorem denied_of_kept {u : State} (hd : s.tap.denied = true)
    (h : (.next u : Host.Outcome State Fault Refusal) = .next t) (hu : u.tap = s.tap) : t.tap.denied = true := by
  cases h
  rw [hu, hd]

/-- An instruction of the port leaves DENIED set, permitted or not, where what it does leaves DENIED (R411). -/
theorem denied_of_tapIf {i : TapInstr} {ok : Bool} {f : State → State} (hd : s.tap.denied = true)
    (h : (.next (s.tapIf i ok f) : Host.Outcome State Fault Refusal) = .next t)
    (hf : ∀ u, (f u).tap.denied = u.tap.denied) : t.tap.denied = true := by
  cases h
  cases ok with
  | false => rfl
  | true => exact (hf _).trans hd

/-- Commands other than Test-Logic-Reset and the two resets of the always-on domain leave DENIED set (R411). -/
theorem exec_keeps_denied {d : Instr} (hd : s.tap.denied = true) (hreset : d ≠ .testLogicReset)
    (hon : d ≠ .aoPowerOn) (hoff : d ≠ .alwaysOnReset) (h : exec d s = .next t) : t.tap.denied = true := by
  cases d with
  | testLogicReset => exact absurd rfl hreset
  | aoPowerOn => exact absurd rfl hon
  | alwaysOnReset => exact absurd rfl hoff
  | stwHalt | stwStep | traceRd | cntRd => exact denied_of_tapIf hd h fun _ => rfl
  | aryRd => exact denied_of_tapIf hd h fun u => by simp [State.tapOut]
  | aryWr => exact denied_of_tapIf hd h fun u => by simp
  | coldReset w =>
    refine denied_of_kept hd h ?_
    split
    · exact State.pulse_tap w s.coldCleared_tap
    · rfl
  | warmReset w =>
    refine denied_of_kept hd h ?_
    split
    · exact State.pulse_tap w (by simp)
    · rfl
  | srcCfgCommit r v => cases v <;> exact denied_of_kept hd h (by simp)
  | handoffSelectTimeout p =>
    refine denied_of_kept hd h (State.inCascade_tap s _ fun u => ?_)
    split <;> simp
  | _ => exact denied_of_kept hd h (by simp)

end

/-! ### The port itself -/

/-- Without its permission an instruction shifts out zeros, changes nothing and sets DENIED (R411). -/
theorem next_tapIf_of_denied (s : State) (i : TapInstr) (f : State → State) {ok : Bool} (h : ok = false) :
    (.next (s.tapIf i ok f) : Host.Outcome State Fault Refusal) = .next (Safety.deniedTap s i) := by
  subst h
  rfl

/-- Five edges with TMS 1 lead to Test-Logic-Reset from every state of the controller (R52, assumption log entry 90). -/
theorem TapCtl.walk_tapReset (c : TapCtl) : c.walk tapReset = .testLogicReset := by cases c <;> rfl

theorem exec_testLogicReset (s : State) :
    exec .testLogicReset s =
      .next { s with tap := { s.tap with ctl := .testLogicReset, ir := none, denied := false } } := by
  rw [← TapCtl.walk_tapReset s.tap.ctl]
  rfl

end Sys2Proof.Machine

namespace Sys2Proof.Proofs

open Sys2Proof.Machine

/-- Settles O15: an instruction without its permission takes the denied branch of `tapIf`; DENIED survives every other
command because no function of the model outside the port writes it. -/
theorem tapDenials : Obligations.TapDenials := fun s _ _ _ _ _ =>
  ⟨fun h => ⟨next_tapIf_of_denied s _ _ h, next_tapIf_of_denied s _ _ h⟩,
    fun h => ⟨next_tapIf_of_denied s _ _ h, next_tapIf_of_denied s _ _ h⟩,
    fun ht hn => next_tapIf_of_denied s _ _ (Bool.or_eq_false_iff.2 ⟨ht, hn⟩),
    fun h => next_tapIf_of_denied s _ _ h,
    exec_testLogicReset s,
    fun hd _ _ hreset hon hoff h => exec_keeps_denied hd hreset hon hoff h⟩

end Sys2Proof.Proofs
end

section
/-!
Proofs of the family "faults and dump": the end of a fatal dump (R402, R437, R438). Which OUTCOME a dump has, what its
writes leave of the state and of the memory port, and which write is the last.
-/

namespace Sys2Proof.Machine

/-! ### OUTCOME (R438, assumption log entry 51) -/

section Outcome

variable (s : State) (m : MemEnd)

theorem MemEnd.ok_eq_true_iff : m.ok = true ↔ m = .done := by cases m <;> simp [MemEnd.ok]

theorem State.dumpsArrays_iff :
    s.dumpsArrays = true ↔ s.fatal.arrays = true ∧ s.dumpFull ≤ s.fatal.dumpLen ∧ 1 ≤ s.lev.cur := by
  simp [State.dumpsArrays, and_assoc]

theorem State.dumpOutcome_le : s.dumpOutcome m ≤ 5 := by
  simp only [State.dumpOutcome]
  repeat' split
  all_goals omega

/-- A steward that does not run writes no dump. -/
theorem State.dumpOutcome_of_stopped (h : s.fatal.cls = 0x13 ∨ s.saf.stwHalted = true ∨ s.saf.stwStop = true) :
    s.dumpOutcome m = 5 := by
  simp [State.dumpOutcome, or_assoc, h]

/-- A steward that runs looks at the buffer first, then at how its writes end, then at the array sections. -/
theorem State.dumpOutcome_of_running (hcls : s.fatal.cls ≠ 0x13) (hhalted : s.saf.stwHalted = false)
    (hstop : s.saf.stwStop = false) :
    s.dumpOutcome m =
      if s.fatal.dumpLen = 0 then 2
      else if s.fatal.dumpLen < s.dumpShort then 3
      else if m ≠ .done then 4
      else if s.fatal.arrays = true ∧ s.dumpFull ≤ s.fatal.dumpLen ∧ 1 ≤ s.lev.cur then 0
      else 1 := by
  simp [State.dumpOutcome, hcls, hhalted, hstop, ← State.dumpsArrays_iff, ← MemEnd.ok_eq_true_iff]

end Outcome

/-! ### A sequence of the steward's writes (R26 to R28) -/

/-- The transaction that joins is the newest. -/
theorem getLast?_memKeep (l : List MemReq) (q : MemReq) : (memKeep l q).getLast? = some q := List.getLast?_concat

/-- A transaction on whole beats that moves at most one of them is not cut. -/
theorem txLen_of_aligned (addr : BitVec 48) (len : Nat) (ha : addr.toNat % 32 = 0) (hl : len ≤ 32) :
    txLen addr len = len := by
  simp only [txLen]
  omega

theorem State.stwRequest_asks (s : State) (write : Bool) (addr : BitVec 48) (len : Nat) (data : List (BitVec 8)) :
    Safety.memAsked s (s.stwRequest write addr len data) write true (bootStwPid s.img.active) addr len data :=
  ⟨rfl, rfl⟩

/-- The steward writes to a buffer: bytes at offsets from its base, in their order. -/
def State.stwWrites (s : State) (base : BitVec 48) (ws : List (Nat × List (BitVec 8))) : State :=
  ws.foldl (fun t w => t.stwRequest true (base + BitVec.ofNat 48 w.1) w.2.length w.2) s

section Writes

variable (s : State) (base : BitVec 48) (ws : List (Nat × List (BitVec 8)))

/-- The writes change the memory port alone. -/
theorem State.stwWrites_eq : s.stwWrites base ws = { s with mem := (s.stwWrites base ws).mem } := by
  induction ws generalizing s with
  | nil => rfl
  | cons w ws ih => exact ih (s.stwRequest true (base + BitVec.ofNat 48 w.1) w.2.length w.2)

theorem State.stwWrites_logs : (s.stwWrites base ws).mem.logs = s.mem.logs := by
  refine foldl_keeps (fun t => t.mem.logs) _ (fun t w => ?_) ws s
  rfl

theorem State.stwWrites_img : (s.stwWrites base ws).img = s.img := by rw [State.stwWrites_eq]

theorem State.stwWrites_made : (s.stwWrites base ws).mem.made = s.mem.made + ws.length := by
  induction ws generalizing s with
  | nil => rfl
  | cons w ws ih =>
    have rest := ih (s.stwRequest true (base + BitVec.ofNat 48 w.1) w.2.length w.2)
    rw [List.length_cons, Nat.add_comm ws.length, ← Nat.add_assoc]
    exact rest

theorem State.stwWrites_concat (w : Nat × List (BitVec 8)) :
    s.stwWrites base (ws ++ [w]) =
      (s.stwWrites base ws).stwRequest true (base + BitVec.ofNat 48 w.1) w.2.length w.2 := by
  simp [State.stwWrites]

/-- The newest transaction after a sequence of writes that ends at the buffer's base, with at most one beat: a
secure-world write with the steward's PID. -/
theorem State.stwWrites_newest (bs : List (BitVec 8)) (hl : bs.length ≤ 32) :
    ∃ q, (s.stwWrites base (ws ++ [(0, bs)])).mem.reqs.getLast? = some q ∧ q.write = true ∧ q.world = true ∧
      q.pid = bootStwPid s.img.active ∧ q.addr = base &&& 0xFFFFFFFFFFE0 ∧
      (base.toNat % 32 = 0 → q.beats = memBeats 9 0 bs) := by
  obtain ⟨-, hreqs⟩ := (s.stwWrites base ws).stwRequest_asks true base bs.length bs
  rw [State.stwWrites_concat, BitVec.add_zero, hreqs, getLast?_memKeep, State.stwWrites_img]
  refine ⟨_, rfl, rfl, rfl, rfl, rfl, fun ha => ?_⟩
  simp only [ha, txLen_of_aligned base _ ha hl, List.take_length]

end Writes

/-! ### The writes of a dump (R437) -/

section Dump

variable (s : State)

theorem State.take_dumpHeader (nsect len : Nat) : (s.dumpHeader nsect len).take 4 = natLE 4 0x504D5544 := by
  unfold State.dumpHeader State.dumpHead
  simp only [List.append_assoc]
  exact List.take_left' rfl

/-- MAGIC is written last. -/
theorem State.dumpWrites_ends_with_magic : ∃ ws, s.dumpWrites = ws ++ [(0, natLE 4 0x504D5544)] := by
  simp only [State.dumpWrites, State.take_dumpHeader]
  exact ⟨_ ++ [_, _], (List.append_assoc _ [_, _] [_]).symm⟩

/-- Zeros are written first in the place of MAGIC. -/
theorem State.dumpWrites_take_one : s.dumpWrites.take 1 = [(0, natLE 32 0)] := rfl

/-- A dump whose OUTCOME says that writes were made ends at the buffer's base: with MAGIC, or with the zeros where a
FAULT ends it. -/
theorem State.dumpMem_of_writes (o : Nat) (h : o = 0 ∨ o = 1 ∨ o = 4) :
    ∃ ws, s.dumpMem o =
      s.stwWrites s.fatal.dumpAddr (ws ++ [(0, if o = 4 then natLE 32 0 else natLE 4 0x504D5544)]) := by
  obtain ⟨ws, hws⟩ := s.dumpWrites_ends_with_magic
  obtain rfl | rfl | rfl := h
  · exact ⟨ws, congrArg (s.stwWrites s.fatal.dumpAddr) hws⟩
  · exact ⟨ws, congrArg (s.stwWrites s.fatal.dumpAddr) hws⟩
  · exact ⟨[], congrArg (s.stwWrites s.fatal.dumpAddr) s.dumpWrites_take_one⟩

theorem State.dumpMem_of_no_writes (o : Nat) (h : o = 2 ∨ o = 3 ∨ o = 5) : (s.dumpMem o).mem = s.mem := by
  obtain rfl | rfl | rfl := h <;> rfl

theorem State.dumpMem_eq (o : Nat) : s.dumpMem o = { s with mem := (s.dumpMem o).mem } := s.stwWrites_eq _ _

/-- What the memory port has carried where the OUTCOME says that writes were made. -/
theorem State.dumpMem_newest (o : Nat) (h : o = 0 ∨ o = 1 ∨ o = 4) :
    s.mem.made < (s.dumpMem o).mem.made ∧ (s.dumpMem o).mem.logs = s.mem.logs ∧ ∃ q,
      (s.dumpMem o).mem.reqs.getLast? = some q ∧ q.write = true ∧ q.world = true ∧
      q.pid = bootStwPid s.img.active ∧ q.addr = s.fatal.dumpAddr &&& 0xFFFFFFFFFFE0 ∧
      (s.fatal.dumpAddr.toNat % 32 = 0 →
        q.beats = memBeats 9 0 (if o = 4 then natLE 32 0 else natLE 4 0x504D5544)) := by
  obtain ⟨ws, hws⟩ := s.dumpMem_of_writes o h
  have oneBeat : (if o = 4 then natLE 32 0 else natLE 4 0x504D5544).length ≤ 32 := by split <;> decide
  rw [hws]
  refine ⟨?_, s.stwWrites_logs _ _, s.stwWrites_newest _ ws _ oneBeat⟩
  rw [State.stwWrites_made, List.length_append, List.length_singleton]
  omega

/-! ### The end of a dump (R402, R438) -/

/-- Outside the fatal sequence, and once HALTED, no dump ends. -/
theorem State.dumpEnd_of_none (m : MemEnd) (cycles : Nat) (h : s.fatal.inSeq = false ∨ s.boot.mode = .halted) :
    s.dumpEnd m cycles = s := by
  obtain h | h := h <;> simp [State.dumpEnd, h]

/-- A dump's end in the fatal sequence: what the memory port carried, the boot log entry and HALTED. -/
theorem State.dumpEnd_eq (m : MemEnd) (cycles : Nat) (hs : s.fatal.inSeq = true) (hm : s.boot.mode ≠ .halted) :
    s.dumpEnd m cycles =
      { s with
        boot := { s.boot with
          mode := .halted
          log := (⟨0x1D, s.dumpOutcome m, cycles⟩ :: s.boot.log).take 64 }
        free := s.free + 1
        mem := (s.dumpMem (s.dumpOutcome m)).mem } := by
  simp only [State.dumpEnd, hs, hm, ne_eq, not_false_eq_true, decide_true, Bool.and_self, if_true]
  rw [State.dumpMem_eq]
  rfl

end Dump

end Sys2Proof.Machine

namespace Sys2Proof.Proofs

open Sys2Proof.Machine

/-- Settles O20: the end of a dump is its OUTCOME's boot log entry, HALTED and the writes that the OUTCOME allows, of
which the last stands at the buffer's base. -/
theorem dumpEnds : Obligations.DumpEnds := by
  intro m cycles s
  refine ⟨fun h => congrArg Host.Outcome.next (s.dumpEnd_of_none m cycles.toNat h), fun hs hm => ?_⟩
  refine ⟨_, s.dumpOutcome m, congrArg Host.Outcome.next (s.dumpEnd_eq m cycles.toNat hs hm), rfl, rfl, rfl,
    s.dumpOutcome_le m, s.dumpMem_newest _, s.dumpMem_of_no_writes _, s.dumpOutcome_of_stopped m,
    fun hcls hhalted hstop => ?_⟩
  rw [s.dumpOutcome_of_running m hcls hhalted hstop]
  refine ⟨fun h0 => if_pos h0, fun h0 h1 => ?_, fun h0 h1 h2 => ?_, fun h0 h1 h2 => ?_⟩
  · rw [if_neg h0, if_pos h1]
  · rw [if_neg h0, if_neg (Nat.not_lt.2 h1), if_pos h2]
  · rw [if_neg h0, if_neg (Nat.not_lt.2 h1), if_neg (not_not_intro h2)]

end Sys2Proof.Proofs
end
